-- ==== Sys2Proof/Word.lean ====
section
/-! DEFINITION. The word types of the block (20_memory.md R51). -/

namespace Sys2Proof

/-- A byte is 8 bits (R51). -/
abbrev Byte := BitVec 8

/-- A control register, and a register-sized operand, is 24 bits (R51). -/
abbrev Reg := BitVec 24

/-- A native word, a command word and a response word are 32 bits (R51). -/
abbrev Word := BitVec 32

end Sys2Proof
end

