-- ==== Sys2Proof/Syntax.lean ====
section
/-! DEFINITION. The commands of the block (30_encoding.md R84), the ports they arrive on and the control register names. -/

namespace Sys2Proof

/-- The four command ports, one agent each (20_memory.md R65). -/
inductive Port where
  /-- host -/
  | h
  /-- playback transport -/
  | p
  /-- capture transport -/
  | c
  /-- frame tick -/
  | f
  deriving DecidableEq, Repr

/-- The 16 control register numbers (10_state.md R23); 11 to 15 are reserved (R35). -/
inductive RegName where
  | id | status | err | carry | est | rate | nframe | nomFb | shRate | shNframe | shNomfb
  | r11 | r12 | r13 | r14 | r15
  deriving DecidableEq, Repr

/-- The 16 commands, one constructor per row of the opcode table (30_encoding.md R84).
Counts, lengths and occupancies are unsigned integers (R83, 00_scope.md R11). -/
inductive Instr where
  | nop
  | wr (reg : RegName) (value : Reg)
  | rd (reg : RegName)
  | syncclr
  | syncset
  | cfgld
  | pstart
  | pstop
  | cstart
  | cstop
  | w2n (n : Nat)
  | n2w (n : Nat)
  | pkt (len : Nat)
  | cap (occ : Nat)
  | fsize (occ : Nat)
  | tick (occ : Nat)
  deriving DecidableEq, Repr

end Sys2Proof
end

