-- ==== Sys2Proof/WellFormed.lean ====
section
/-! DEFINITION. When a command is well formed: its operand fits the `imm` field (30_encoding.md R83), and it stands on a port that allows it (R86). -/

namespace Sys2Proof

/-- The operand of a format I command, if the command has one (R82). -/
def Instr.count : Instr → Option Nat
  | .w2n n => some n
  | .n2w n => some n
  | .pkt n => some n
  | .cap n => some n
  | .fsize n => some n
  | .tick n => some n
  | .nop => none
  | .wr _ _ => none
  | .rd _ => none
  | .syncclr => none
  | .syncset => none
  | .cfgld => none
  | .pstart => none
  | .pstop => none
  | .cstart => none
  | .cstop => none

/-- The operand fits 24 bits: 0 to `2^24 - 1` (R83). A register name and a register value always fit. -/
abbrev Instr.WellFormed (i : Instr) : Prop := ∀ n ∈ i.count, n < 2 ^ 24

/-- The ports on which a command is allowed, read from the by-port table of R86. -/
def Instr.ports : Instr → List Port
  | .nop => [.h, .p, .c, .f]
  | .wr _ _ => [.h]
  | .rd _ => [.h]
  | .syncclr => [.h]
  | .syncset => [.h]
  | .cfgld => [.h]
  | .pstart => [.h]
  | .pstop => [.h]
  | .cstart => [.h]
  | .cstop => [.h]
  | .w2n _ => [.p]
  | .n2w _ => [.c]
  | .pkt _ => [.p]
  | .cap _ => [.c]
  | .fsize _ => [.c]
  | .tick _ => [.f]

/-- The port may issue the command (R86). -/
abbrev Port.Allows (q : Port) (i : Instr) : Prop := q ∈ i.ports

end Sys2Proof
end

