-- ==== Sys2Proof/Decode.lean ====
section
/-! DEFINITION. Decoding a command word (30_encoding.md R81 to R88) and, after it, the encoder. -/

namespace Sys2Proof

/-! ### Fields of a command word (R81) -/

/-- Field `op`, bits 31:28. -/
def opField (w : Word) : BitVec 4 := w.extractLsb' 28 4

/-- Field `a`, bits 27:24: register number, sub-opcode, or 0. -/
def aField (w : Word) : BitVec 4 := w.extractLsb' 24 4

/-- Field `imm`, bits 23:0: the unsigned operand, taken as it stands (R83). -/
def immField (w : Word) : BitVec 24 := w.extractLsb' 0 24

/-- A command word put together from its three fields, most significant first. -/
def wordOfFields (op a : BitVec 4) (imm : BitVec 24) : Word := op ++ a ++ imm

/-! ### Register numbers (10_state.md R23) -/

/-- The register a 4-bit number names. -/
def regOfNumber (a : BitVec 4) : RegName :=
  match a.toNat with
  | 0 => .id
  | 1 => .status
  | 2 => .err
  | 3 => .carry
  | 4 => .est
  | 5 => .rate
  | 6 => .nframe
  | 7 => .nomFb
  | 8 => .shRate
  | 9 => .shNframe
  | 10 => .shNomfb
  | 11 => .r11
  | 12 => .r12
  | 13 => .r13
  | 14 => .r14
  | _ => .r15

/-- The number of a register. -/
def numberOfReg : RegName → BitVec 4
  | .id => 0
  | .status => 1
  | .err => 2
  | .carry => 3
  | .est => 4
  | .rate => 5
  | .nframe => 6
  | .nomFb => 7
  | .shRate => 8
  | .shNframe => 9
  | .shNomfb => 10
  | .r11 => 11
  | .r12 => 12
  | .r13 => 13
  | .r14 => 14
  | .r15 => 15

/-! ### The opcode map (R84) -/

/-- The 16 mnemonics of the opcode map. -/
inductive Mnemonic where
  | NOP | WR | RD | SYNCCLR | SYNCSET | CFGLD | PSTART | PSTOP | CSTART | CSTOP
  | W2N | N2W | PKT | CAP | FSIZE | TICK
  deriving DecidableEq, Repr

/-- One row of R84: a word `w` selects the row when `w & mask = pattern` (the spec's `match`). -/
structure Row where
  mnemonic : Mnemonic
  pattern : Word
  mask : Word
  ports : List Port
  deriving DecidableEq, Repr

/-- R84, row by row. -/
def opcodeTable : List Row := [
  ⟨.NOP,     0x00000000, 0xFFFFFFFF, [.h, .p, .c, .f]⟩,
  ⟨.WR,      0x10000000, 0xF0000000, [.h]⟩,
  ⟨.RD,      0x20000000, 0xF0FFFFFF, [.h]⟩,
  ⟨.SYNCCLR, 0x30000000, 0xFFFFFFFF, [.h]⟩,
  ⟨.SYNCSET, 0x31000000, 0xFFFFFFFF, [.h]⟩,
  ⟨.CFGLD,   0x32000000, 0xFFFFFFFF, [.h]⟩,
  ⟨.PSTART,  0x34000000, 0xFFFFFFFF, [.h]⟩,
  ⟨.PSTOP,   0x35000000, 0xFFFFFFFF, [.h]⟩,
  ⟨.CSTART,  0x36000000, 0xFFFFFFFF, [.h]⟩,
  ⟨.CSTOP,   0x37000000, 0xFFFFFFFF, [.h]⟩,
  ⟨.W2N,     0x40000000, 0xFF000000, [.p]⟩,
  ⟨.N2W,     0x50000000, 0xFF000000, [.c]⟩,
  ⟨.PKT,     0x60000000, 0xFF000000, [.p]⟩,
  ⟨.CAP,     0x70000000, 0xFF000000, [.c]⟩,
  ⟨.FSIZE,   0x80000000, 0xFF000000, [.c]⟩,
  ⟨.TICK,    0x90000000, 0xFF000000, [.f]⟩]

/-- `w & mask = match` (R84). -/
def Row.selects (r : Row) (w : Word) : Bool := w &&& r.mask == r.pattern

/-- The row a word selects, if any (step 1 of R87). -/
def rowOf (w : Word) : Option Row := opcodeTable.find? (·.selects w)

/-- The command of a row, with `a` and `imm` as operands (step 3 of R87). -/
def buildInstr (m : Mnemonic) (a : BitVec 4) (imm : BitVec 24) : Instr :=
  match m with
  | .NOP => .nop
  | .WR => .wr (regOfNumber a) imm
  | .RD => .rd (regOfNumber a)
  | .SYNCCLR => .syncclr
  | .SYNCSET => .syncset
  | .CFGLD => .cfgld
  | .PSTART => .pstart
  | .PSTOP => .pstop
  | .CSTART => .cstart
  | .CSTOP => .cstop
  | .W2N => .w2n imm.toNat
  | .N2W => .n2w imm.toNat
  | .PKT => .pkt imm.toNat
  | .CAP => .cap imm.toNat
  | .FSIZE => .fsize imm.toNat
  | .TICK => .tick imm.toNat

/-- Why a word is no command; either way the block raises ILLOP (R87, 60_exceptions.md R192). -/
inductive Reject where
  /-- The word matches no row: it is reserved (step 1 of R87, R88). -/
  | reservedWord
  /-- The row's command is not allowed on the port (step 2 of R87, R86). -/
  | notAllowedOnPort
  deriving DecidableEq, Repr

/-- The command a word stands for, whatever the port; total on every word. -/
def decode (w : Word) : Except Reject Instr :=
  match rowOf w with
  | some r => .ok (buildInstr r.mnemonic (aField w) (immField w))
  | none => .error .reservedWord

/-- Decode of a word taken from a port, the three steps of R87 in order. -/
def decodeOn (q : Port) (w : Word) : Except Reject Instr :=
  match rowOf w with
  | some r =>
    if q ∈ r.ports then .ok (buildInstr r.mnemonic (aField w) (immField w))
    else .error .notAllowedOnPort
  | none => .error .reservedWord

/-! ### The encoder (R82, R84, R85) -/

/-- The command word of a well-formed command. -/
def encode : Instr → Word
  | .nop => wordOfFields 0x0 0x0 0
  | .wr r v => wordOfFields 0x1 (numberOfReg r) v
  | .rd r => wordOfFields 0x2 (numberOfReg r) 0
  | .syncclr => wordOfFields 0x3 0x0 0
  | .syncset => wordOfFields 0x3 0x1 0
  | .cfgld => wordOfFields 0x3 0x2 0
  | .pstart => wordOfFields 0x3 0x4 0
  | .pstop => wordOfFields 0x3 0x5 0
  | .cstart => wordOfFields 0x3 0x6 0
  | .cstop => wordOfFields 0x3 0x7 0
  | .w2n n => wordOfFields 0x4 0x0 (BitVec.ofNat 24 n)
  | .n2w n => wordOfFields 0x5 0x0 (BitVec.ofNat 24 n)
  | .pkt n => wordOfFields 0x6 0x0 (BitVec.ofNat 24 n)
  | .cap n => wordOfFields 0x7 0x0 (BitVec.ofNat 24 n)
  | .fsize n => wordOfFields 0x8 0x0 (BitVec.ofNat 24 n)
  | .tick n => wordOfFields 0x9 0x0 (BitVec.ofNat 24 n)

/-! ### Words on a byte link (20_memory.md R58) -/

/-- The 32-bit word whose four bytes came over a byte link, `word[7:0]` first (R58). -/
def wordOfBytes (b0 b1 b2 b3 : Byte) : Word := b3 ++ b2 ++ b1 ++ b0

/-- The four bytes of a command, response or native word, least significant first (R56, R58). -/
def bytesOfWord (w : Word) : List Byte :=
  [w.extractLsb' 0 8, w.extractLsb' 8 8, w.extractLsb' 16 8, w.extractLsb' 24 8]

/-! ### The host's entry to the decoder -/

/-- A port on which the word is a command: the first of its row's ports, H where it has no row. -/
def homePort (w : Word) : Port :=
  match rowOf w with
  | some r => r.ports.headD .h
  | none => .h

/-- The command word of an opcode-table word, whose bits above `nbits` are 0. -/
def tableWord (nbits w : Nat) : Word := BitVec.ofNat 32 (w % 2 ^ nbits)

/-- What the decoder reads from an opcode-table word. -/
def decodeTableWord (nbits w : Nat) : Option Instr :=
  match decode (tableWord nbits w) with
  | .ok i => some i
  | .error _ => none

end Sys2Proof
end

