-- ==== Sys2Proof/Config.lean ====
section
/-! DEFINITION. The nine static parameters of the block (00_scope.md R7), their constraints and the reference profile P0.

The spec leaves every parameter open ("a model takes it as a configuration argument"); the machine
takes them from `State.params`, which no step changes (log entry 1). -/

namespace Sys2Proof

/-- The nine static parameters, under the spec's own names (R7). `MAXPKT` is read by no rule (R8). -/
structure Params where
  /-- bytes per sample-group on the wire -/
  W : Nat
  /-- channels per sample-group -/
  CH : Nat
  /-- the transport's promise on packet length -/
  MAXPKT : Nat
  /-- frame sizer adjustment quantum, in sample-groups -/
  DELTA : Nat
  /-- frame sizer clamp, in sample-groups -/
  NMAX : Nat
  /-- feedback quantum, in units of 2^-14 sample per frame -/
  QUANTUM : Nat
  /-- lower saturation bound of the estimate -/
  FB_MIN : Nat
  /-- upper saturation bound of the estimate -/
  FB_MAX : Nat
  /-- whether SYNCCLR also clears FB_EN -/
  FBEN_CLR_ON_SYNCCLR : Bool
  deriving DecidableEq, Repr

/-- The constraints of R7. A parameter set that breaks one has no machine (R224): `step` refuses it. -/
abbrev Params.Legal (p : Params) : Prop :=
  (p.W = 3 ∨ p.W = 6) ∧ p.CH = p.W / 3 ∧ p.MAXPKT ≤ 2 ^ 24 - 1 ∧ p.DELTA ≤ 2 ^ 24 - 1 ∧
    p.NMAX ≤ 2 ^ 24 - 1 ∧ (1 ≤ p.QUANTUM ∧ p.QUANTUM ≤ 2 ^ 24 - 1) ∧
    p.FB_MIN ≤ p.FB_MAX ∧ p.FB_MAX ≤ 0xFFFFFF

/-- Profile P0, the reference values of R7 (decision D30). -/
def Params.P0 : Params where
  W := 6
  CH := 2
  MAXPKT := 1023
  DELTA := 2
  NMAX := 170
  QUANTUM := 1
  FB_MIN := 0x000000
  FB_MAX := 0xFFFFFF
  FBEN_CLR_ON_SYNCCLR := false

end Sys2Proof
end

