-- ==== Sys2Proof/Machine/State.lean ====
section
/-! DEFINITION. The state of the block (10_state.md R20), reset (R40), and the reasons a step can stop. -/

namespace Sys2Proof.Machine

/-- One item for each of the four ports. -/
structure PerPort (α : Type) where
  h : α
  p : α
  c : α
  f : α
  deriving DecidableEq, Repr

/-- The four error bits of register ERR (10_state.md R25), in the order of their codes 0 to 3. -/
inductive ErrorBit where
  | illop | illreg | cfgerr | seqerr
  deriving DecidableEq, Repr

/-- What the outside and the schedule do between two commands (log entry 2). -/
inductive Event where
  /-- the block turns to this port: it takes the head command if that is enabled (20_memory.md R65, R66) -/
  | turn (q : Port)
  /-- the port's agent issues a command word (10_state.md R37) -/
  | issue (q : Port) (w : Word)
  /-- the transport appends bytes to WIRE_IN (10_state.md R36) -/
  | wireIn (bytes : List Byte)
  /-- the bus appends words to NATIVE_IN (10_state.md R36) -/
  | nativeIn (words : List Word)
  /-- the reset input (70_reset_and_hazards.md R220) -/
  | reset
  deriving DecidableEq, Repr

/-- The state of the block: R20's list, and two fields of the model's own (`params`, `agenda`).

STATUS and ERR are views of the flag and error fields (Flags.lean); CARRY is the length of `pend`
(log entries 4 and 5); ID is a constant (R27); registers 11 to 15 have no storage (R35). -/
structure State where
  /-- the nine static parameters, which no step changes (00_scope.md R7; the model's own field, log entry 1) -/
  params : Params
  /-- STATUS bit 0, the clock-synced flag (R24) -/
  sync : Bool
  /-- STATUS bit 1, the feedback-enabled flag (R24) -/
  fbEn : Bool
  /-- STATUS bit 2, playback direction running (R24) -/
  pbRun : Bool
  /-- STATUS bit 3, capture direction running (R24) -/
  capRun : Bool
  /-- STATUS bit 4, a CFGLD has succeeded since reset (R24) -/
  cfgValid : Bool
  /-- ERR bit 0 (R25) -/
  illop : Bool
  /-- ERR bit 1 (R25) -/
  illreg : Bool
  /-- ERR bit 2 (R25) -/
  cfgerr : Bool
  /-- ERR bit 3 (R25) -/
  seqerr : Bool
  /-- the valid bytes of PEND, `PEND[0 .. CARRY-1]` in arrival order (R29); its length is CARRY (R26) -/
  pend : List Byte
  /-- EST, the feedback estimate, 10.14 fixed point (R28) -/
  est : Reg
  /-- RATE, active sample rate (R31) -/
  rate : Reg
  /-- NFRAME, active nominal frame size (R32) -/
  nframe : Reg
  /-- NOM_FB, active nominal feedback value (R33) -/
  nomFb : Reg
  /-- SH_RATE, shadow of RATE (R34) -/
  shRate : Reg
  /-- SH_NFRAME, shadow of NFRAME (R34) -/
  shNframe : Reg
  /-- SH_NOMFB, shadow of NOM_FB (R34) -/
  shNomfb : Reg
  /-- WIRE_IN (R36) -/
  wireIn : List Byte
  /-- NATIVE_IN (R36) -/
  nativeIn : List Word
  /-- NATIVE_OUT, every word pushed since reset (R36) -/
  nativeOut : List Word
  /-- WIRE_OUT, every byte pushed since reset (R36) -/
  wireOut : List Byte
  /-- FB_OUT, every byte pushed since reset (R36) -/
  fbOut : List Byte
  /-- the command queues CMD_H, CMD_P, CMD_C, CMD_F, head first (R37) -/
  cmd : PerPort (List Word)
  /-- the response histories RSP_H, RSP_P, RSP_C, RSP_F (R37) -/
  rsp : PerPort (List Word)
  /-- the events still to come (the model's own field, log entry 2) -/
  agenda : List Event
  deriving DecidableEq, Repr

/-- No fault exists on this block: an illegal or refused command is recorded in ERR and the block
goes on (60_exceptions.md R190, R199, R202; log entry 12). Nothing raises one. -/
inductive Fault where
  deriving DecidableEq, Repr

/-- Why a step gives no meaning. -/
inductive Refusal where
  /-- An instruction without a meaning, raised by exec's arm; no arm of this model does. Safe. -/
  | notModelled (mnemonic : String)
  /-- The parameters break a constraint of 00_scope.md R7, so "no machine exists" (R224, 93 S10); raised by `step`. Safe. -/
  | illegalParameters
  deriving DecidableEq, Repr

/-- The state right after reset, for given parameters (R40, R220, R221). -/
def State.resetWith (params : Params) : State where
  params := params
  sync := false
  fbEn := false
  pbRun := false
  capRun := false
  cfgValid := false
  illop := false
  illreg := false
  cfgerr := false
  seqerr := false
  pend := []
  est := 0x000000
  rate := 0x000000
  nframe := 0x000000
  nomFb := 0x000000
  shRate := 0x000000
  shNframe := 0x000000
  shNomfb := 0x000000
  wireIn := []
  nativeIn := []
  nativeOut := []
  wireOut := []
  fbOut := []
  cmd := ⟨[], [], [], []⟩
  rsp := ⟨[], [], [], []⟩
  agenda := []

/-- The state right after reset, under the reference profile P0 (R7, R40; log entry 1). -/
def State.reset : State := State.resetWith Params.P0

end Sys2Proof.Machine
end

