-- ==== Sys2Proof/Machine/Flags.lean ====
section
/-! DEFINITION. The registers STATUS, ERR and CARRY and the output `err`, as views of the state (10_state.md R24, R25, R26, R42). -/

namespace Sys2Proof.Machine

/-- Register STATUS (R24): SYNC in bit 0, FB_EN 1, PB_RUN 2, CAP_RUN 3, CFG_VALID 4; bits 23:5 read as zero. -/
def State.statusWord (s : State) : Reg :=
  0#19 ++ BitVec.ofBool s.cfgValid ++ BitVec.ofBool s.capRun ++ BitVec.ofBool s.pbRun ++
    BitVec.ofBool s.fbEn ++ BitVec.ofBool s.sync

/-- Register ERR (R25): ILLOP in bit 0, ILLREG 1, CFGERR 2, SEQERR 3; bits 23:4 read as zero. -/
def State.errWord (s : State) : Reg :=
  0#20 ++ BitVec.ofBool s.seqerr ++ BitVec.ofBool s.cfgerr ++ BitVec.ofBool s.illreg ++
    BitVec.ofBool s.illop

/-- The carry: the number of valid bytes of PEND (R26, R29; log entry 4). -/
def State.carry (s : State) : Nat := s.pend.length

/-- Register CARRY (R26): the carry in bits 2:0; bits 23:3 read as zero. -/
def State.carryWord (s : State) : Reg := 0#21 ++ BitVec.ofNat 3 s.carry

/-- The level output `err`: 1 exactly when ERR is not zero (R42). -/
def State.errOut (s : State) : Bool := s.errWord != 0

end Sys2Proof.Machine
end

