-- ==== Sys2Proof/Machine/Ops.lean ====
section
/-! DEFINITION. The named operations over registers, streams, queues and errors: the primitives of 00_scope.md R14, shared by every meaning. -/

namespace Sys2Proof.Machine

/-! ### One item per port -/

/-- The item of a port. -/
def PerPort.get {α : Type} (x : PerPort α) : Port → α
  | .h => x.h
  | .p => x.p
  | .c => x.c
  | .f => x.f

/-- Replace the item of one port. -/
def PerPort.set {α : Type} (x : PerPort α) (q : Port) (v : α) : PerPort α :=
  match q with
  | .h => { x with h := v }
  | .p => { x with p := v }
  | .c => { x with c := v }
  | .f => { x with f := v }

/-! ### Errors: the block's one exception mechanism (60_exceptions.md R191) -/

/-- `raise E`: set the sticky bit `E` of ERR and change nothing else (R191). There is no trap to
enter and none to return from (R202, R203). -/
def State.raise (e : ErrorBit) (s : State) : State :=
  match e with
  | .illop => { s with illop := true }
  | .illreg => { s with illreg := true }
  | .cfgerr => { s with cfgerr := true }
  | .seqerr => { s with seqerr := true }

/-! ### Control registers (10_state.md R23) -/

/-- Read a control register, reserved ones as `0x000000` (R23, R27, R35). No side effect (20_memory.md R62). -/
def State.readReg (r : RegName) (s : State) : Reg :=
  match r with
  | .id => 0x535743
  | .status => s.statusWord
  | .err => s.errWord
  | .carry => s.carryWord
  | .est => s.est
  | .rate => s.rate
  | .nframe => s.nframe
  | .nomFb => s.nomFb
  | .shRate => s.shRate
  | .shNframe => s.shNframe
  | .shNomfb => s.shNomfb
  | .r11 => 0
  | .r12 => 0
  | .r13 => 0
  | .r14 => 0
  | .r15 => 0

/-- Registers 11 to 15 (R35). -/
def isReserved : RegName → Bool
  | .r11 => true
  | .r12 => true
  | .r13 => true
  | .r14 => true
  | .r15 => true
  | _ => false

/-- Write a control register: only the three shadow registers take a value (R23, R34); any other
write raises ILLREG and changes nothing else (45_control.md R161). -/
def State.writeReg (r : RegName) (v : Reg) (s : State) : State :=
  match r with
  | .shRate => { s with shRate := v }
  | .shNframe => { s with shNframe := v }
  | .shNomfb => { s with shNomfb := v }
  | _ => s.raise .illreg

/-! ### Streams (10_state.md R36) -/

/-- `pop(WIRE_IN, n)`: the first `n` bytes, and the state without them. -/
def State.popWireIn (n : Nat) (s : State) : List Byte × State :=
  (s.wireIn.take n, { s with wireIn := s.wireIn.drop n })

/-- `pop(NATIVE_IN, n)`: the first `n` words, and the state without them. -/
def State.popNativeIn (n : Nat) (s : State) : List Word × State :=
  (s.nativeIn.take n, { s with nativeIn := s.nativeIn.drop n })

/-- `push(NATIVE_OUT, ws)`; output streams never refuse (20_memory.md R74). -/
def State.pushNativeOut (ws : List Word) (s : State) : State :=
  { s with nativeOut := s.nativeOut ++ ws }

/-- `push(WIRE_OUT, bs)`. -/
def State.pushWireOut (bs : List Byte) (s : State) : State :=
  { s with wireOut := s.wireOut ++ bs }

/-- `push(FB_OUT, bs)`. -/
def State.pushFbOut (bs : List Byte) (s : State) : State :=
  { s with fbOut := s.fbOut ++ bs }

/-! ### Responses and queues (10_state.md R37) -/

/-- `rsp(port, v)`: append the response word `zext_32(v)` to the port's response stream (30_encoding.md R91). -/
def State.respond (q : Port) (v : Reg) (s : State) : State :=
  { s with rsp := s.rsp.set q (s.rsp.get q ++ [v.setWidth 32]) }

/-- Replace a port's command queue. -/
def State.setQueue (q : Port) (ws : List Word) (s : State) : State :=
  { s with cmd := s.cmd.set q ws }

/-- Replace the events still to come. -/
def State.setAgenda (es : List Event) (s : State) : State := { s with agenda := es }

/-! ### The realignment state (10_state.md R26, R29) -/

/-- Replace the valid bytes of PEND, and CARRY with their number. -/
def State.setPend (bs : List Byte) (s : State) : State := { s with pend := bs }

/-- `CARRY <- 0`: PEND has no valid byte any more (45_control.md R166, R167). -/
def State.clearCarry (s : State) : State := s.setPend []

end Sys2Proof.Machine
end

