-- ==== Sys2Proof/Machine/Operands.lean ====
section
/-! DEFINITION. The sample formats and the pure functions the commands compute with: width conversion (41_converter.md), frame size (43_frame_sizer.md), estimate step (44_feedback.md), and the enabling conditions (20_memory.md R67). -/

namespace Sys2Proof.Machine

/-! ### Sample formats (20_memory.md R54 to R56, 41_converter.md R110 to R113) -/

/-- Wire to native, one channel-sample (R112): `{ b2, b1, b0, 0x00 }`. -/
def w2nCh (b0 b1 b2 : Byte) : Word := b2 ++ b1 ++ b0 ++ 0x00#8

/-- Native to wire, one channel-sample (R113): `[ n[15:8], n[23:16], n[31:24] ]`; the padding byte is dropped unread. -/
def n2wCh (n : Word) : List Byte :=
  [n.extractLsb' 8 8, n.extractLsb' 16 8, n.extractLsb' 24 8]

/-- Wire bytes to native words, three bytes a word in time order (R111, R112). -/
def wireToNative : List Byte → List Word
  | b0 :: b1 :: b2 :: rest => w2nCh b0 b1 b2 :: wireToNative rest
  | _ => []

/-- Native words to wire bytes, in time order (R111, R113). -/
def nativeToWire (ws : List Word) : List Byte := ws.flatMap n2wCh

/-- The three bytes of a 24-bit value on the wire, least significant first (R54, 44_feedback.md R148). -/
def bytesOfReg (v : Reg) : List Byte :=
  [v.extractLsb' 0 8, v.extractLsb' 8 8, v.extractLsb' 16 8]

/-! ### 10.14 fixed point (00_scope.md R15) -/

/-- The integer part `v[23:14]` of a 10.14 value. -/
def fixedInt (v : Reg) : BitVec 10 := v.extractLsb' 14 10

/-- The fraction `v[13:0]` of a 10.14 value, in units of `2^-14`. -/
def fixedFrac (v : Reg) : BitVec 14 := v.extractLsb' 0 14

/-- The rational a 10.14 value stands for, `v / 2^14` (R15, 44_feedback.md R145). -/
def fixedValue (v : Reg) : ℚ := (v.toNat : ℚ) / 2 ^ 14

/-! ### The frame sizer (43_frame_sizer.md R135) -/

/-- `fsize` before the clamp. Subtraction stops at 0, which is the rule's `max(nominal - DELTA, 0)`. -/
def frameSizeRaw (p : Params) (nominal occ : Nat) : Nat :=
  if occ > nominal + 1 then nominal + p.DELTA
  else if occ < nominal then nominal - p.DELTA
  else nominal

/-- `fsize(occ)` (R135), with `nominal` = NFRAME. -/
def State.frameSize (occ : Nat) (s : State) : Nat :=
  min (frameSizeRaw s.params s.nframe.toNat occ) s.params.NMAX

/-! ### The feedback estimate (44_feedback.md R146) -/

/-- `fb_step(est, occ)` over the mathematical integers (R146, 00_scope.md R11), `target` = NFRAME. -/
def fbStepInt (p : Params) (target est occ : Int) : Int :=
  if occ < target - 1 then min (est + p.QUANTUM) p.FB_MAX
  else if occ > target + 1 then max (est - p.QUANTUM) p.FB_MIN
  else est

/-- The estimate after one frame boundary, as the 24-bit register value (R147; it fits by R152). -/
def State.nextEst (occ : Nat) (s : State) : Reg :=
  BitVec.ofInt 24 (fbStepInt s.params s.nframe.toNat s.est.toNat occ)

/-! ### The check of CFGLD (45_control.md R165) -/

/-- CFGLD raises CFGERR: a direction runs, or SH_NOMFB is outside `[FB_MIN, FB_MAX]`. -/
def State.cfgldRefused (s : State) : Bool :=
  s.pbRun || s.capRun || decide (s.shNomfb.toNat < s.params.FB_MIN) ||
    decide (s.shNomfb.toNat > s.params.FB_MAX)

/-! ### Enabling conditions (20_memory.md R67) -/

/-- W2N `n`: `len(WIRE_IN) >= W * n`. -/
def w2nEnabled (n : Nat) (s : State) : Bool := decide (s.wireIn.length ≥ s.params.W * n)

/-- N2W `n`: `len(NATIVE_IN) >= CH * n`. -/
def n2wEnabled (n : Nat) (s : State) : Bool := decide (s.nativeIn.length ≥ s.params.CH * n)

/-- PKT `L`: SYNC = 1 and PB_RUN = 1 and `len(WIRE_IN) >= L`. -/
def pktEnabled (len : Nat) (s : State) : Bool :=
  s.sync && s.pbRun && decide (s.wireIn.length ≥ len)

/-- CAP `occ`: SYNC = 1 and CAP_RUN = 1 and `len(NATIVE_IN) >= CH * fsize(occ)`. -/
def capEnabled (occ : Nat) (s : State) : Bool :=
  s.sync && s.capRun && decide (s.nativeIn.length ≥ s.params.CH * s.frameSize occ)

/-- The enabling condition of every command; all but four are always enabled (R67). -/
def enabled (i : Instr) (s : State) : Bool :=
  match i with
  | .nop => true
  | .wr _ _ => true
  | .rd _ => true
  | .syncclr => true
  | .syncset => true
  | .cfgld => true
  | .pstart => true
  | .pstop => true
  | .cstart => true
  | .cstop => true
  | .w2n n => w2nEnabled n s
  | .n2w n => n2wEnabled n s
  | .pkt len => pktEnabled len s
  | .cap occ => capEnabled occ s
  | .fsize _ => true
  | .tick _ => true

end Sys2Proof.Machine
end

