-- ==== Sys2Proof/Machine/Control.lean ====
section
/-! DEFINITION. The control commands NOP, WR, RD, SYNCCLR, SYNCSET, CFGLD, PSTART, PSTOP, CSTART, CSTOP (45_control.md). All are always enabled. -/

namespace Sys2Proof.Machine

open Host (Outcome)

/-- NOP (R160): nothing. -/
def execNop (s : State) : Outcome State Fault Refusal := .next s

/-- WR (R161): a shadow register takes the value; any other register raises ILLREG. -/
def execWr (reg : RegName) (value : Reg) (s : State) : Outcome State Fault Refusal :=
  .next (s.writeReg reg value)

/-- RD (R162): answer the register on RSP_H; a reserved number answers 0 and raises ILLREG. -/
def execRd (reg : RegName) (s : State) : Outcome State Fault Refusal :=
  let answered := s.respond .h (s.readReg reg)
  .next (if isReserved reg then answered.raise .illreg else answered)

/-- SYNCCLR (R163): clear SYNC, and FB_EN too under the parameter. -/
def execSyncclr (s : State) : Outcome State Fault Refusal :=
  .next { s with sync := false, fbEn := s.fbEn && !s.params.FBEN_CLR_ON_SYNCCLR }

/-- SYNCSET (R164): load EST with NOM_FB and set FB_EN and SYNC in one step, or SEQERR. -/
def execSyncset (s : State) : Outcome State Fault Refusal :=
  if s.cfgValid then .next { s with est := s.nomFb, fbEn := true, sync := true }
  else .next (s.raise .seqerr)

/-- CFGLD (R165): the shadow replaces the active configuration in one step, or CFGERR. -/
def execCfgld (s : State) : Outcome State Fault Refusal :=
  if s.cfgldRefused then .next (s.raise .cfgerr)
  else .next { s with rate := s.shRate, nframe := s.shNframe, nomFb := s.shNomfb, cfgValid := true }

/-- PSTART (R166): `CARRY <- 0`, `PB_RUN <- 1`. -/
def execPstart (s : State) : Outcome State Fault Refusal :=
  .next { s.clearCarry with pbRun := true }

/-- PSTOP (R167): `CARRY <- 0`, `PB_RUN <- 0`. -/
def execPstop (s : State) : Outcome State Fault Refusal :=
  .next { s.clearCarry with pbRun := false }

/-- CSTART (R168): `CAP_RUN <- 1`. -/
def execCstart (s : State) : Outcome State Fault Refusal := .next { s with capRun := true }

/-- CSTOP (R169): `CAP_RUN <- 0`. -/
def execCstop (s : State) : Outcome State Fault Refusal := .next { s with capRun := false }

end Sys2Proof.Machine
end

