-- ==== Sys2Proof/Machine/Converter.lean ====
section
/-! DEFINITION. The Sample-Width Converter commands W2N and N2W (41_converter.md). A command that is not enabled is held: it changes nothing (20_memory.md R67, log entry 6). -/

namespace Sys2Proof.Machine

open Host (Outcome)

/-- W2N `n` (R114): pop `W * n` bytes of WIRE_IN and push their `CH * n` native words. -/
def execW2n (n : Nat) (s : State) : Outcome State Fault Refusal :=
  if w2nEnabled n s then
    let popped := s.popWireIn (s.params.W * n)
    .next (popped.2.pushNativeOut (wireToNative popped.1))
  else .next s

/-- N2W `n` (R115): pop `CH * n` words of NATIVE_IN and push their `W * n` wire bytes. -/
def execN2w (n : Nat) (s : State) : Outcome State Fault Refusal :=
  if n2wEnabled n s then
    let popped := s.popNativeIn (s.params.CH * n)
    .next (popped.2.pushWireOut (nativeToWire popped.1))
  else .next s

end Sys2Proof.Machine
end

