-- ==== Sys2Proof/Machine/Feedback.lean ====
section
/-! DEFINITION. The Feedback Rate Estimator command TICK (44_feedback.md). -/

namespace Sys2Proof.Machine

open Host (Outcome)

/-- TICK `occ` (R147): with FB_EN 1, step EST and publish the new value on FB_OUT, least significant
byte first; with FB_EN 0, nothing at all. -/
def execTick (occ : Nat) (s : State) : Outcome State Fault Refusal :=
  if s.fbEn then
    .next ({ s with est := s.nextEst occ }.pushFbOut (bytesOfReg (s.nextEst occ)))
  else .next s

end Sys2Proof.Machine
end

