-- ==== Sys2Proof/Machine/FrameSizer.lean ====
section
/-! DEFINITION. The Adaptive Capture Frame Sizer commands FSIZE and CAP (43_frame_sizer.md). -/

namespace Sys2Proof.Machine

open Host (Outcome)

/-- FSIZE `occ` (R136): answer the frame size on RSP_C; move no data. -/
def execFsize (occ : Nat) (s : State) : Outcome State Fault Refusal :=
  .next (s.respond .c (BitVec.ofNat 24 (s.frameSize occ)))

/-- CAP `occ` (R137): convert `N = fsize(occ)` sample-groups from native to wire and answer `N`. A
CAP that is not enabled is held: it changes nothing (20_memory.md R67, log entry 6). -/
def execCap (occ : Nat) (s : State) : Outcome State Fault Refusal :=
  if capEnabled occ s then
    let popped := s.popNativeIn (s.params.CH * s.frameSize occ)
    .next ((popped.2.pushWireOut (nativeToWire popped.1)).respond .c
      (BitVec.ofNat 24 (s.frameSize occ)))
  else .next s

end Sys2Proof.Machine
end

