-- ==== Sys2Proof/Machine/Realign.lean ====
section
/-! DEFINITION. The Realignment Engine command PKT (42_realign.md). -/

namespace Sys2Proof.Machine

open Host (Outcome)

/-- PKT `L` (R121): pending bytes then packet, cut into whole sample-groups; the groups go to
NATIVE_OUT, the trailing bytes to PEND, and the group count is answered on RSP_P. A PKT that is not
enabled is held: it changes nothing (20_memory.md R67, log entry 6). -/
def execPkt (len : Nat) (s : State) : Outcome State Fault Refusal :=
  if pktEnabled len s then
    let popped := s.popWireIn len
    let bytes := s.pend ++ popped.1
    let total := s.carry + len
    let groups := total / s.params.W
    let left := total % s.params.W
    let out := wireToNative (bytes.take (s.params.W * groups))
    let tail := (bytes.drop (s.params.W * groups)).take left
    .next (((popped.2.pushNativeOut out).setPend tail).respond .p (BitVec.ofNat 24 groups))
  else .next s

end Sys2Proof.Machine
end

