-- ==== Sys2Proof/Machine/Dispatch.lean ====
section
/-! DEFINITION. exec: one arm per command of the opcode map (30_encoding.md R84). -/

namespace Sys2Proof.Machine

def exec (i : Instr) (s : State) : Host.Outcome State Fault Refusal :=
  match i with
  | .nop => Sys2Proof.Machine.execNop s
  | .wr reg value => Sys2Proof.Machine.execWr reg value s
  | .rd reg => Sys2Proof.Machine.execRd reg s
  | .syncclr => Sys2Proof.Machine.execSyncclr s
  | .syncset => Sys2Proof.Machine.execSyncset s
  | .cfgld => Sys2Proof.Machine.execCfgld s
  | .pstart => Sys2Proof.Machine.execPstart s
  | .pstop => Sys2Proof.Machine.execPstop s
  | .cstart => Sys2Proof.Machine.execCstart s
  | .cstop => Sys2Proof.Machine.execCstop s
  | .w2n n => Sys2Proof.Machine.execW2n n s
  | .n2w n => Sys2Proof.Machine.execN2w n s
  | .pkt len => Sys2Proof.Machine.execPkt len s
  | .cap occ => Sys2Proof.Machine.execCap occ s
  | .fsize occ => Sys2Proof.Machine.execFsize occ s
  | .tick occ => Sys2Proof.Machine.execTick occ s

end Sys2Proof.Machine
end

