-- ==== Sys2Proof/Machine/Fetch.lean ====
section
/-! DEFINITION. Taking the head command of a port (20_memory.md R66, R67; 30_encoding.md R87), a turn of a port, and the events of the outside. -/

namespace Sys2Proof.Machine

open Host (Outcome)

/-- What stands at the head of a port when the block turns to it. -/
inductive Taken where
  /-- the queue is empty: the port is idle (60_exceptions.md R213) -/
  | idle
  /-- the head command is not enabled: it stays at the head and nothing changes (20_memory.md R67) -/
  | held
  /-- the head word is no command on this port: consumed at once, ILLOP raised (30_encoding.md R87, R88) -/
  | rejected (s' : State)
  /-- the head command is enabled: it runs in the state without it in its queue (20_memory.md R66) -/
  | run (i : Instr) (s' : State)
  deriving DecidableEq, Repr

/-- Look at the head word of a port: decode it, and take it if it can be taken. -/
def takeHead (q : Port) (s : State) : Taken :=
  match s.cmd.get q with
  | [] => .idle
  | w :: rest =>
    match decodeOn q w with
    | .error _ => .rejected ((s.setQueue q rest).raise .illop)
    | .ok i => if enabled i s then .run i (s.setQueue q rest) else .held

/-- The agent of a port issues a command word: it joins the end of the port's queue (10_state.md R37). -/
def State.issue (q : Port) (w : Word) (s : State) : State := s.setQueue q (s.cmd.get q ++ [w])

/-- The transport appends bytes to WIRE_IN (10_state.md R36). -/
def State.feedWireIn (bs : List Byte) (s : State) : State := { s with wireIn := s.wireIn ++ bs }

/-- The bus appends words to NATIVE_IN (10_state.md R36). -/
def State.feedNativeIn (ws : List Word) (s : State) : State :=
  { s with nativeIn := s.nativeIn ++ ws }

/-- The reset input (70_reset_and_hazards.md R220): every piece of state takes its reset value. The
parameters stay, and so do the events still to come (log entry 9). -/
def State.resetInput (s : State) : State := (State.resetWith s.params).setAgenda s.agenda

/-- The state in which the very next step takes `w` from port `q`. -/
def State.withCommand (q : Port) (w : Word) (s : State) : State :=
  (s.setQueue q (w :: s.cmd.get q)).setAgenda (.turn q :: s.agenda)

/-- One turn of a port: the head command runs whole (20_memory.md R64), is consumed as illegal, or
waits. -/
def turn (q : Port) (s : State) : Outcome State Fault Refusal :=
  match takeHead q s with
  | .idle => .next s
  | .held => .next s
  | .rejected s' => .next s'
  | .run i s' => exec i s'

/-- One event. -/
def handle (e : Event) (s : State) : Outcome State Fault Refusal :=
  match e with
  | .turn q => turn q s
  | .issue q w => .next (s.issue q w)
  | .wireIn bs => .next (s.feedWireIn bs)
  | .nativeIn ws => .next (s.feedNativeIn ws)
  | .reset => .next s.resetInput

end Sys2Proof.Machine
end

