-- ==== Sys2Proof/Machine/Step.lean ====
section
/-! DEFINITION. One step of the machine, and where the host places a command. -/

namespace Sys2Proof.Machine

open Host (Outcome)

/-- One step: the next event of the agenda. With no event left the block waits (70_reset_and_hazards.md
R221, log entry 2). Parameters that break a constraint have no machine (R224). -/
def step (s : State) : Outcome State Fault Refusal :=
  if s.params.Legal then
    match s.agenda with
    | [] => .next s
    | e :: rest => handle e (s.setAgenda rest)
  else .refused .illegalParameters

/-- The opcode-table word as the command the very next step takes: at the head of a port that allows
it, with that port's turn next (log entry 3). -/
def State.withFetchWord (s : State) (nbits w : Nat) : State :=
  s.withCommand (homePort (tableWord nbits w)) (tableWord nbits w)

end Sys2Proof.Machine
end

