-- ==== Sys2Proof/Machine/Pseudo.lean ====
section
/-! DEFINITION. The pseudo-instructions of port H (30_encoding.md R93), a sequence of commands run one after the other, and the assembler line of a command (R92). -/

namespace Sys2Proof.Machine

open Host (Outcome)

/-- `SETCFG rate, nframe, nomfb` (R93): the three shadow registers. -/
def setCfg (rate nframe nomfb : Reg) : List Instr :=
  [.wr .shRate rate, .wr .shNframe nframe, .wr .shNomfb nomfb]

/-- `STOPALL` (R93). -/
def stopAll : List Instr := [.pstop, .cstop]

/-- `RECONF rate, nframe, nomfb, dirs` (R93, the host protocol of 60_exceptions.md R207); `pb` and
`cap` say whether playback and capture are in `dirs`. -/
def reconf (rate nframe nomfb : Reg) (pb cap : Bool) : List Instr :=
  setCfg rate nframe nomfb ++ [.syncclr] ++ stopAll ++ [.cfgld] ++
    (if pb then [.pstart] else []) ++ (if cap then [.cstart] else []) ++ [.syncset]

/-- The commands of a list, in order, stopping at the first fault or refusal. -/
def execAll : List Instr → State → Outcome State Fault Refusal
  | [], s => .next s
  | i :: rest, s =>
    match exec i s with
    | .next t => execAll rest t
    | .fault r => .fault r
    | .refused r => .refused r

/-- The name of a register in the assembler syntax (10_state.md R23); a reserved one has its number. -/
def regText : RegName → String
  | .id => "ID"
  | .status => "STATUS"
  | .err => "ERR"
  | .carry => "CARRY"
  | .est => "EST"
  | .rate => "RATE"
  | .nframe => "NFRAME"
  | .nomFb => "NOM_FB"
  | .shRate => "SH_RATE"
  | .shNframe => "SH_NFRAME"
  | .shNomfb => "SH_NOMFB"
  | .r11 => "11"
  | .r12 => "12"
  | .r13 => "13"
  | .r14 => "14"
  | .r15 => "15"

/-- The mnemonic and the operands of a command, numbers in decimal (30_encoding.md R92). -/
def commandText : Instr → String
  | .nop => "NOP"
  | .wr r v => "WR " ++ regText r ++ ", " ++ toString v.toNat
  | .rd r => "RD " ++ regText r
  | .syncclr => "SYNCCLR"
  | .syncset => "SYNCSET"
  | .cfgld => "CFGLD"
  | .pstart => "PSTART"
  | .pstop => "PSTOP"
  | .cstart => "CSTART"
  | .cstop => "CSTOP"
  | .w2n n => "W2N " ++ toString n
  | .n2w n => "N2W " ++ toString n
  | .pkt n => "PKT " ++ toString n
  | .cap n => "CAP " ++ toString n
  | .fsize n => "FSIZE " ++ toString n
  | .tick n => "TICK " ++ toString n

/-- The name of a port in the assembler syntax (R92). -/
def portText : Port → String
  | .h => "H"
  | .p => "P"
  | .c => "C"
  | .f => "F"

/-- One line of the assembler syntax (R92). -/
def assemblerLine (q : Port) (i : Instr) : String := portText q ++ ": " ++ commandText i

end Sys2Proof.Machine
end

