-- ==== Sys2Proof/Safety.lean ====
section
/-! DEFINITION. The terms claims use: invariants (10_state.md R38), the parts of the state and who may write them (R39), the end of a run and what is observed of it (70_reset_and_hazards.md R238), fair schedules (R237). -/

namespace Sys2Proof.Machine

open Host (Outcome)

/-! ### Invariants -/

/-- The state invariants of R38: V1, V3, V4, V9 and the constraints on the parameters (00_scope.md R7).
V8 holds by construction (`statusWord`, `errWord`, `carryWord`); V2, V5, V6, V7 are about steps. -/
abbrev State.Inv (s : State) : Prop :=
  s.params.Legal ∧
  s.carry < s.params.W ∧
  (s.cfgValid = true → s.params.FB_MIN ≤ s.nomFb.toNat ∧ s.nomFb.toNat ≤ s.params.FB_MAX) ∧
  (s.fbEn = true → s.cfgValid = true ∧ s.params.FB_MIN ≤ s.est.toNat ∧
    s.est.toNat ≤ s.params.FB_MAX) ∧
  (s.pbRun = false → s.carry = 0) ∧
  (s.sync = true → s.cfgValid = true)

/-- A response word carries a 24-bit answer: `r[31:24] = 0` (30_encoding.md R91). -/
abbrev zeroTop (r : Word) : Prop := r.extractLsb' 24 8 = 0#8

/-- The shape of the output histories: whole values on FB_OUT (44_feedback.md R148), whole
sample-groups on NATIVE_OUT (20_memory.md R63) and WIRE_OUT (43_frame_sizer.md R137), no response on
RSP_F (10_state.md R37), 24-bit answers (30_encoding.md R91). -/
abbrev State.StreamInv (s : State) : Prop :=
  s.params.Legal ∧
  s.fbOut.length % 3 = 0 ∧
  s.nativeOut.length % s.params.CH = 0 ∧
  s.wireOut.length % s.params.W = 0 ∧
  s.rsp.f = [] ∧
  (∀ r ∈ s.rsp.h, zeroTop r) ∧ (∀ r ∈ s.rsp.p, zeroTop r) ∧ (∀ r ∈ s.rsp.c, zeroTop r)

/-! ### Parts of the state -/

/-- The pieces of the state, one name each, for frame statements. -/
inductive Part where
  | params | sync | fbEn | pbRun | capRun | cfgValid | illop | illreg | cfgerr | seqerr
  | pend | est | rate | nframe | nomFb | shRate | shNframe | shNomfb
  | wireIn | nativeIn | nativeOut | wireOut | fbOut
  | cmd (q : Port) | rsp (q : Port) | agenda
  deriving DecidableEq, Repr

/-- The part has the same value in both states. -/
def Part.Same (x : Part) (s t : State) : Prop :=
  match x with
  | .params => t.params = s.params
  | .sync => t.sync = s.sync
  | .fbEn => t.fbEn = s.fbEn
  | .pbRun => t.pbRun = s.pbRun
  | .capRun => t.capRun = s.capRun
  | .cfgValid => t.cfgValid = s.cfgValid
  | .illop => t.illop = s.illop
  | .illreg => t.illreg = s.illreg
  | .cfgerr => t.cfgerr = s.cfgerr
  | .seqerr => t.seqerr = s.seqerr
  | .pend => t.pend = s.pend
  | .est => t.est = s.est
  | .rate => t.rate = s.rate
  | .nframe => t.nframe = s.nframe
  | .nomFb => t.nomFb = s.nomFb
  | .shRate => t.shRate = s.shRate
  | .shNframe => t.shNframe = s.shNframe
  | .shNomfb => t.shNomfb = s.shNomfb
  | .wireIn => t.wireIn = s.wireIn
  | .nativeIn => t.nativeIn = s.nativeIn
  | .nativeOut => t.nativeOut = s.nativeOut
  | .wireOut => t.wireOut = s.wireOut
  | .fbOut => t.fbOut = s.fbOut
  | .cmd q => t.cmd.get q = s.cmd.get q
  | .rsp q => t.rsp.get q = s.rsp.get q
  | .agenda => t.agenda = s.agenda

/-- Every part outside the list has the same value in both states. -/
def SameExcept (written : List Part) (s t : State) : Prop := ∀ x : Part, x ∉ written → x.Same s t

/-- What a command may write: the `State written`, `Response` and stream lines of its rule
(41_converter.md to 45_control.md). -/
def writes : Instr → List Part
  | .nop => []
  | .wr .shRate _ => [.shRate]
  | .wr .shNframe _ => [.shNframe]
  | .wr .shNomfb _ => [.shNomfb]
  | .wr _ _ => [.illreg]
  | .rd r => if isReserved r then [.rsp .h, .illreg] else [.rsp .h]
  | .syncclr => [.sync, .fbEn]
  | .syncset => [.est, .fbEn, .sync, .seqerr]
  | .cfgld => [.rate, .nframe, .nomFb, .cfgValid, .cfgerr]
  | .pstart => [.pend, .pbRun]
  | .pstop => [.pend, .pbRun]
  | .cstart => [.capRun]
  | .cstop => [.capRun]
  | .w2n _ => [.wireIn, .nativeOut]
  | .n2w _ => [.nativeIn, .wireOut]
  | .pkt _ => [.wireIn, .nativeOut, .pend, .rsp .p]
  | .cap _ => [.nativeIn, .wireOut, .rsp .c]
  | .fsize _ => [.rsp .c]
  | .tick _ => [.est, .fbOut]

/-- What a turn of a port may write, besides the port's own queue: the ownership table of
10_state.md R39, with the streams of R36 and the responses of R37. -/
def portWrites : Port → List Part
  | .h => [.sync, .fbEn, .pbRun, .capRun, .cfgValid, .illop, .illreg, .cfgerr, .seqerr, .pend,
      .est, .rate, .nframe, .nomFb, .shRate, .shNframe, .shNomfb, .rsp .h]
  | .p => [.illop, .pend, .wireIn, .nativeOut, .rsp .p]
  | .c => [.illop, .nativeIn, .wireOut, .rsp .c]
  | .f => [.illop, .est, .fbOut]

/-! ### Several steps -/

/-- `n` steps, stopping at the first fault or refusal (`Host.Core.run` of this machine). -/
def runSteps : Nat → State → Outcome State Fault Refusal
  | 0, s => .next s
  | n + 1, s =>
    match step s with
    | .next t => runSteps n t
    | .fault r => .fault r
    | .refused r => .refused r

/-! ### What the next step does -/

/-- The next event is the reset input. -/
def State.resetNext (s : State) : Bool := s.agenda.head? == some .reset

/-- The command the next step runs, with its port; none where it waits, is rejected, or no port has its turn. -/
def State.running (s : State) : Option (Port × Instr) :=
  match s.agenda with
  | .turn q :: es =>
    match takeHead q (s.setAgenda es) with
    | .run i _ => some (q, i)
    | .idle => none
    | .held => none
    | .rejected _ => none
  | _ => none

/-- The words `w2n_ch(b[3j], b[3j+1], b[3j+2])` for `j = 0 .. k-1`, as the rules write them
(41_converter.md R114, 42_realign.md R121). -/
def wordsAt (b : List Byte) (k : Nat) : List Word :=
  (List.range k).map fun j => w2nCh (b.getD (3 * j) 0) (b.getD (3 * j + 1) 0) (b.getD (3 * j + 2) 0)

/-- `out` is `n2w_ch(w[0]) ++ ... ++ n2w_ch(w[k-1])`, byte by byte (41_converter.md R113, R115). -/
def IsWireOf (out : List Byte) (w : List Word) (k : Nat) : Prop :=
  out.length = 3 * k ∧ ∀ j < k,
    out.getD (3 * j) 0 = (w.getD j 0).extractLsb' 8 8 ∧
    out.getD (3 * j + 1) 0 = (w.getD j 0).extractLsb' 16 8 ∧
    out.getD (3 * j + 2) 0 = (w.getD j 0).extractLsb' 24 8

/-! ### The gate (20_memory.md R70) -/

/-- The gate is closed and nothing queued or to come opens it: SYNC is clear, no SYNCSET word stands
in port H's queue or will be issued there, and no reset comes. -/
abbrev State.GateClosed (s : State) : Prop :=
  s.sync = false ∧ (0x31000000#32) ∉ s.cmd.h ∧ Event.issue .h 0x31000000#32 ∉ s.agenda ∧
    Event.reset ∉ s.agenda

/-- The next step runs a packet command: a PKT or a CAP. -/
def State.RunsPacket (s : State) : Prop :=
  ∃ q n, s.running = some (q, .pkt n) ∨ s.running = some (q, .cap n)

/-! ### Errors -/

/-- A run without an error so far: `ERR = 0` (60_exceptions.md R199). -/
abbrev State.Clean (s : State) : Prop := s.errWord = 0

/-! ### The end of a run (70_reset_and_hazards.md R238) -/

/-- The four ports. -/
def allPorts : List Port := [.h, .p, .c, .f]

/-- Only turns are left: no agent issues, the environment appends nothing more, no reset comes. R238
asks it of the appends alone, and in the stuck case; the rest is the model's choice (log entry 16). -/
def onlyTurns (es : List Event) : Bool :=
  es.all fun e =>
    match e with
    | .turn _ => true
    | .issue _ _ => false
    | .wireIn _ => false
    | .nativeIn _ => false
    | .reset => false

/-- The run has ended and completed: every queue is empty. R238 leaves open whether such a run has
ended while the outside still has something to bring; that it has not, so that `onlyTurns` is asked
here too, is the model's choice (DESIGN CHOICE, log entry 16). -/
abbrev State.Completed (s : State) : Prop :=
  onlyTurns s.agenda = true ∧ ∀ q ∈ allPorts, s.cmd.get q = []

/-- The run has ended and is stuck: some queue is not empty, every non-empty queue has a held
command at its head, and nothing more will be appended. That no command will be issued and no reset
comes is asked too, by the model's choice (DESIGN CHOICE, log entry 16). -/
abbrev State.Stuck (s : State) : Prop :=
  onlyTurns s.agenda = true ∧ (∃ q ∈ allPorts, s.cmd.get q ≠ []) ∧
    ∀ q ∈ allPorts, s.cmd.get q = [] ∨ takeHead q s = .held

/-- The observable result of a run (R238). -/
structure Observation where
  nativeOut : List Word
  wireOut : List Byte
  fbOut : List Byte
  rsp : PerPort (List Word)
  err : Bool
  /-- registers 0 to 10, in the order of their numbers (STATUS holds the flags) -/
  registers : List Reg
  pend : List Byte
  wireIn : List Byte
  nativeIn : List Word
  deriving DecidableEq, Repr

/-- What a run has shown when it ends in `s`. -/
def State.observe (s : State) : Observation where
  nativeOut := s.nativeOut
  wireOut := s.wireOut
  fbOut := s.fbOut
  rsp := s.rsp
  err := s.errOut
  registers := [RegName.id, .status, .err, .carry, .est, .rate, .nframe, .nomFb, .shRate,
    .shNframe, .shNomfb].map fun r => s.readReg r
  pend := s.pend
  wireIn := s.wireIn
  nativeIn := s.nativeIn

/-! ### Infinite schedules and fairness (70_reset_and_hazards.md R237) -/

/-- The state after one event; a step that stops leaves the state as it was (it never does when the
parameters are legal). -/
def State.after (e : Event) (s : State) : State :=
  match step { s with agenda := [e] } with
  | .next t => t
  | .fault _ => s
  | .refused _ => s

/-- The state after the first `n` events of an infinite schedule. -/
def trace (events : Nat → Event) (s : State) : Nat → State
  | 0 => s
  | n + 1 => (trace events s n).after (events n)

/-- The head of the port's queue can be taken: it is an enabled command, or a word that raises ILLOP. -/
def canTake (q : Port) (s : State) : Bool :=
  match takeHead q s with
  | .idle => false
  | .held => false
  | .rejected _ => true
  | .run _ _ => true

/-- Weak fairness between ports: a head that stays takeable gets its turn (R237). -/
def WeaklyFair (events : Nat → Event) (s : State) : Prop :=
  ∀ q n, (∀ m, n ≤ m → canTake q (trace events s m) = true) →
    ∃ m, n ≤ m ∧ events m = .turn q

end Sys2Proof.Machine
end

