-- ==== Sys2Proof/Certificates/Slice0/Obligations.lean ====
section
/-! DEFINITION. The statements for the provers. Each docstring names the rule of spec/ it formalises.

Statements about `step` speak through the agenda, the model's own list of the events to come (log
entry 2): they hold for every agenda, that is for every order of the ports. -/

open Sys2Proof Sys2Proof.Machine
open Host (Outcome)

/-! ### Encoding -/

/-- One word of every family, written out from the field layout of R81 and the opcode map of R84, decodes to its command. -/
def Obligations.WrittenWordsDecode : Prop :=
  decode 0b00000000000000000000000000000000#32 = .ok .nop ∧
  decode 0b00011001000000000000000000110000#32 = .ok (.wr .shNframe 48) ∧
  decode 0b00101111000000000000000000000000#32 = .ok (.rd .r15) ∧
  decode 0b00110001000000000000000000000000#32 = .ok .syncset ∧
  decode 0b00110101000000000000000000000000#32 = .ok .pstop ∧
  decode 0b01000000000000000000000000000010#32 = .ok (.w2n 2) ∧
  decode 0b01010000000000000000000000000001#32 = .ok (.n2w 1) ∧
  decode 0b01100000111111111111111111111111#32 = .ok (.pkt 16777215) ∧
  decode 0b01110000000000000000000000110000#32 = .ok (.cap 48) ∧
  decode 0b10000000000000000000000001100100#32 = .ok (.fsize 100) ∧
  decode 0b10010000000000000000000000101110#32 = .ok (.tick 46)

/-- Decoding the word of a well-formed command gives the command back, on every port that allows it
and on no other (R82, R84, R86, R87). -/
def Obligations.DecodeOfEncode : Prop :=
  ∀ i : Instr, i.WellFormed →
    decode (encode i) = .ok i ∧
    ∀ q : Port, decodeOn q (encode i) = if q.Allows i then .ok i else .error .notAllowedOnPort

/-- R92: the words the assembler syntax stands for, as numbers (register number times `2^24` plus value,
opcode times `2^28` plus operand, and the fixed words). -/
def Obligations.WordsAsNumbers : Prop :=
  (∀ (r : RegName) (v : Reg),
    (encode (.wr r v)).toNat = 0x10000000 + (numberOfReg r).toNat * 2 ^ 24 + v.toNat ∧
    (encode (.rd r)).toNat = 0x20000000 + (numberOfReg r).toNat * 2 ^ 24) ∧
  (∀ n < 2 ^ 24,
    (encode (.w2n n)).toNat = 4 * 2 ^ 28 + n ∧ (encode (.n2w n)).toNat = 5 * 2 ^ 28 + n ∧
    (encode (.pkt n)).toNat = 6 * 2 ^ 28 + n ∧ (encode (.cap n)).toNat = 7 * 2 ^ 28 + n ∧
    (encode (.fsize n)).toNat = 8 * 2 ^ 28 + n ∧ (encode (.tick n)).toNat = 9 * 2 ^ 28 + n) ∧
  [Instr.nop, .syncclr, .syncset, .cfgld, .pstart, .pstop, .cstart, .cstop].map encode =
    [0x00000000, 0x30000000, 0x31000000, 0x32000000, 0x34000000, 0x35000000, 0x36000000, 0x37000000]

/-- Every command has one word only: the word a command was decoded from is its encoding (R80 to R84, R89, R90). -/
def Obligations.EncodeOfDecode : Prop :=
  ∀ (w : Word) (i : Instr), decode w = .ok i → i.WellFormed ∧ encode i = w

/-- R83: the operands are the `a` and `imm` fields as they stand, unsigned, neither shifted nor extended. -/
def Obligations.OperandsTakenAsTheyStand : Prop :=
  ∀ (w : Word) (i : Instr), decode w = .ok i →
    (∀ n ∈ i.count, n = w.toNat % 2 ^ 24) ∧
    (∀ r v, i = .wr r v →
      v.toNat = w.toNat % 2 ^ 24 ∧ (numberOfReg r).toNat = w.toNat / 2 ^ 24 % 16) ∧
    (∀ r, i = .rd r → (numberOfReg r).toNat = w.toNat / 2 ^ 24 % 16)

/-- R84: no word selects two rows of the opcode map. -/
def Obligations.RowsAreDisjoint : Prop :=
  ∀ (w : Word) (r r' : Row), r ∈ opcodeTable → r' ∈ opcodeTable →
    r.selects w = true → r'.selects w = true → r = r'

/-- R88: the reserved words are the five classes listed, and each raises ILLOP and does nothing else. -/
def Obligations.ReservedWordsRaiseIllop : Prop :=
  (∀ w : Word, (∀ r ∈ opcodeTable, r.selects w = false) ↔
    (10 ≤ w.toNat / 2 ^ 28) ∨
    (w.toNat / 2 ^ 28 = 0 ∧ w.toNat % 2 ^ 28 ≠ 0) ∨
    (w.toNat / 2 ^ 28 = 2 ∧ w.toNat % 2 ^ 24 ≠ 0) ∨
    (w.toNat / 2 ^ 28 = 3 ∧ (w.toNat / 2 ^ 24 % 16 = 3 ∨ 8 ≤ w.toNat / 2 ^ 24 % 16 ∨
      w.toNat % 2 ^ 24 ≠ 0)) ∨
    (4 ≤ w.toNat / 2 ^ 28 ∧ w.toNat / 2 ^ 28 ≤ 9 ∧ w.toNat / 2 ^ 24 % 16 ≠ 0)) ∧
  (∀ (w : Word) (q : Port) (s : State) (rest : List Word) (es : List Event),
    s.params.Legal → s.agenda = .turn q :: es → s.cmd.get q = w :: rest →
    (∀ r ∈ opcodeTable, r.selects w = false) →
    step s = .next { s with agenda := es, cmd := s.cmd.set q rest, illop := true })

/-- R86: the rights by port, and a command word on a port without the right raises ILLOP and has no other effect. -/
def Obligations.PortRights : Prop :=
  ((opcodeTable.filter (fun r => decide (Port.h ∈ r.ports))).map Row.mnemonic =
      [.NOP, .WR, .RD, .SYNCCLR, .SYNCSET, .CFGLD, .PSTART, .PSTOP, .CSTART, .CSTOP] ∧
   (opcodeTable.filter (fun r => decide (Port.p ∈ r.ports))).map Row.mnemonic = [.NOP, .W2N, .PKT] ∧
   (opcodeTable.filter (fun r => decide (Port.c ∈ r.ports))).map Row.mnemonic =
      [.NOP, .N2W, .CAP, .FSIZE] ∧
   (opcodeTable.filter (fun r => decide (Port.f ∈ r.ports))).map Row.mnemonic = [.NOP, .TICK]) ∧
  (∀ (w : Word) (r : Row) (q : Port) (s : State) (rest : List Word) (es : List Event),
    s.params.Legal → s.agenda = .turn q :: es → s.cmd.get q = w :: rest →
    r ∈ opcodeTable → r.selects w = true → q ∉ r.ports →
    step s = .next { s with agenda := es, cmd := s.cmd.set q rest, illop := true })

/-- R56, R58: the byte view of a word is little-endian, and the byte view of a native word is `[pad, b0, b1, b2]`. -/
def Obligations.WordsOnAByteLink : Prop :=
  (∀ w : Word, ∃ b0 b1 b2 b3 : Byte, bytesOfWord w = [b0, b1, b2, b3] ∧
    wordOfBytes b0 b1 b2 b3 = w ∧
    w.toNat = b0.toNat + 2 ^ 8 * b1.toNat + 2 ^ 16 * b2.toNat + 2 ^ 24 * b3.toNat) ∧
  (∀ b0 b1 b2 : Byte, bytesOfWord (w2nCh b0 b1 b2) = [0, b0, b1, b2])

/-! ### A step -/

/-- A step runs the decoded command: on a turn of port `q`, an enabled head command leaves the queue
and runs whole (R64, R66, R87). -/
def Obligations.StepRunsTheDecodedCommand : Prop :=
  ∀ (q : Port) (s : State) (w : Word) (rest : List Word) (es : List Event) (i : Instr),
    s.params.Legal → s.agenda = .turn q :: es → s.cmd.get q = w :: rest →
    decodeOn q w = .ok i → enabled i s = true →
    step s = exec i { s with agenda := es, cmd := s.cmd.set q rest }

/-- R67: only PKT, CAP, W2N and N2W are ever held, and a held command stays at the head and changes
nothing. That `exec` of a held command answers the unchanged state is the model's convention (log
entry 6). The four conditions are stated with their commands. -/
def Obligations.HeldCommandWaits : Prop :=
  (∀ (s : State) (i : Instr), enabled i s = false →
    (∃ n, i = .pkt n ∨ i = .cap n ∨ i = .w2n n ∨ i = .n2w n) ∧ exec i s = .next s) ∧
  (∀ (q : Port) (s : State) (w : Word) (rest : List Word) (es : List Event) (i : Instr),
    s.params.Legal → s.agenda = .turn q :: es → s.cmd.get q = w :: rest →
    decodeOn q w = .ok i → enabled i s = false →
    step s = .next { s with agenda := es })

/-- R66: commands of a port are taken strictly from the head of its queue, in issue order; a head that
is not enabled blocks its own port and no other. -/
def Obligations.QueueInIssueOrder : Prop :=
  (∀ (q : Port) (s t : State) (es : List Event), s.agenda = .turn q :: es → step s = .next t →
    (∀ q', q' ≠ q → t.cmd.get q' = s.cmd.get q') ∧
    ((∃ w, s.cmd.get q = w :: t.cmd.get q ∧ takeHead q s ≠ .held) ∨
      (t.cmd.get q = s.cmd.get q ∧ (takeHead q s = .held ∨ s.cmd.get q = [])))) ∧
  (∀ (q : Port) (s : State) (w : Word) (es : List Event), s.params.Legal →
    s.agenda = .issue q w :: es →
    ∃ t, step s = .next t ∧ t.cmd.get q = s.cmd.get q ++ [w] ∧
      ∀ q', q' ≠ q → t.cmd.get q' = s.cmd.get q') ∧
  (∀ (q q' : Port) (s : State) (w : Word) (rest : List Word) (es : List Event) (i : Instr),
    s.params.Legal → q ≠ q' → takeHead q s = .held → s.agenda = .turn q' :: es →
    s.cmd.get q' = w :: rest → decodeOn q' w = .ok i → enabled i s = true →
    ∃ t, step s = .next t ∧ t.cmd.get q' = rest ∧ t.cmd.get q = s.cmd.get q)

/-- R36, R37: what the outside appends goes to the end of its stream or queue and touches nothing
else. That it arrives as an event of the agenda is the model's choice (log entry 2). -/
def Obligations.OutsideAppends : Prop :=
  ∀ (s : State) (es : List Event), s.params.Legal →
    (∀ q w, s.agenda = .issue q w :: es → ∃ t, step s = .next t ∧
      SameExcept [.cmd q, .agenda] s t ∧ t.cmd.get q = s.cmd.get q ++ [w] ∧ t.agenda = es) ∧
    (∀ bs, s.agenda = .wireIn bs :: es → ∃ t, step s = .next t ∧
      SameExcept [.wireIn, .agenda] s t ∧ t.wireIn = s.wireIn ++ bs ∧ t.agenda = es) ∧
    (∀ ws, s.agenda = .nativeIn ws :: es → ∃ t, step s = .next t ∧
      SameExcept [.nativeIn, .agenda] s t ∧ t.nativeIn = s.nativeIn ++ ws ∧ t.agenda = es)

/-- R224, with the constraints of R7 spelled out: a parameter set that breaks a constraint is refused,
every other one steps, always to a next state, and no step changes a parameter. That the parameters
are in State (log entry 1) and that step refuses them, by the name illegalParameters (log entry 10),
are the model's choices. -/
def Obligations.IllegalParametersRefused : Prop :=
  (∀ s : State, step s = .refused .illegalParameters ↔
    (s.params.W ≠ 3 ∧ s.params.W ≠ 6) ∨ 3 * s.params.CH ≠ s.params.W ∨
    2 ^ 24 ≤ s.params.MAXPKT ∨ 2 ^ 24 ≤ s.params.DELTA ∨ 2 ^ 24 ≤ s.params.NMAX ∨
    s.params.QUANTUM = 0 ∨ 2 ^ 24 ≤ s.params.QUANTUM ∨
    s.params.FB_MAX < s.params.FB_MIN ∨ 2 ^ 24 ≤ s.params.FB_MAX) ∧
  (∀ s : State, step s ≠ .refused .illegalParameters → ∃ t, step s = .next t) ∧
  (∀ s t : State, step s = .next t → t.params = s.params)

/-! ### Reset -/

/-- R40, R220: the reset event gives every piece of state its reset value, whatever the state was. The
parameters and the events still to come stay (log entry 9); the values the source does not ground are
the spec's zeros (decision D26, log entry 7). -/
def Obligations.ResetEvent : Prop :=
  ∀ (s : State) (es : List Event), s.params.Legal → s.agenda = .reset :: es →
    ∃ t, step s = .next t ∧ t.params = s.params ∧ t.agenda = es ∧
      t.readReg .id = 0x535743 ∧
      (∀ r : RegName, r ≠ .id → t.readReg r = 0) ∧
      t.pend = [] ∧ t.wireIn = [] ∧ t.nativeIn = [] ∧ t.nativeOut = [] ∧ t.wireOut = [] ∧
      t.fbOut = [] ∧ (∀ q : Port, t.cmd.get q = [] ∧ t.rsp.get q = []) ∧ t.errOut = false

/-- The state after reset meets the invariants of R38 and the stream shapes, for every legal parameter
set; `State.reset` is that state under profile P0, which is legal (log entry 1). -/
def Obligations.ResetMeetsInvariants : Prop :=
  (∀ p : Params, p.Legal → (State.resetWith p).Inv ∧ (State.resetWith p).StreamInv ∧
    (State.resetWith p).Clean) ∧
  State.reset = State.resetWith Params.P0 ∧ Params.P0.Legal

/-! ### Invariants and whole-machine rules -/

/-- R38, V1, V3, V4, V9: every step keeps the state invariants. -/
def Obligations.StepKeepsInvariants : Prop :=
  ∀ s t : State, s.Inv → step s = .next t → t.Inv

/-- R37, R63, R91, R148: every step keeps the shape of the output histories. -/
def Obligations.StepKeepsStreamShapes : Prop :=
  ∀ s t : State, s.StreamInv → step s = .next t → t.StreamInv

/-- R38 V2, R171: a set bit of ERR, and CFG_VALID, stay set until reset. -/
def Obligations.ErrorBitsAndCfgValidStick : Prop :=
  ∀ s t : State, step s = .next t → s.resetNext = false →
    s.errWord &&& t.errWord = s.errWord ∧ (s.cfgValid = true → t.cfgValid = true)

/-- R197: a command raises at most one error. -/
def Obligations.AtMostOneErrorPerStep : Prop :=
  ∀ s t : State, step s = .next t → s.resetNext = false →
    t.errWord = s.errWord ∨ ∃ k < 4, t.errWord = s.errWord ||| (1#24 <<< k)

/-- R38 V5: EST changes only in a TICK executed with FB_EN 1, or in a successful SYNCSET. -/
def Obligations.EstChangesOnlyByTickOrSyncset : Prop :=
  ∀ s t : State, step s = .next t → s.resetNext = false → t.est ≠ s.est →
    (s.fbEn = true ∧ ∃ occ, s.running = some (.f, .tick occ)) ∨
    (s.cfgValid = true ∧ s.running = some (.h, .syncset) ∧ t.est = s.nomFb)

/-- R38 V6: RATE, NFRAME, NOM_FB change only in a CFGLD executed with both directions stopped, all three together. -/
def Obligations.ConfigChangesOnlyByCfgldWhileStopped : Prop :=
  ∀ s t : State, step s = .next t → s.resetNext = false →
    (t.rate ≠ s.rate ∨ t.nframe ≠ s.nframe ∨ t.nomFb ≠ s.nomFb) →
    s.running = some (.h, .cfgld) ∧ s.pbRun = false ∧ s.capRun = false ∧
      t.rate = s.shRate ∧ t.nframe = s.shNframe ∧ t.nomFb = s.shNomfb

/-- R170: PB_RUN changes only in PSTART and PSTOP, CAP_RUN only in CSTART and CSTOP (and reset). -/
def Obligations.DirectionFlagsHaveTheirOwnCommands : Prop :=
  ∀ s t : State, step s = .next t → s.resetNext = false →
    (t.pbRun ≠ s.pbRun →
      (s.running = some (.h, .pstart) ∧ t.pbRun = true) ∨
      (s.running = some (.h, .pstop) ∧ t.pbRun = false)) ∧
    (t.capRun ≠ s.capRun →
      (s.running = some (.h, .cstart) ∧ t.capRun = true) ∨
      (s.running = some (.h, .cstop) ∧ t.capRun = false))

/-- 90_conflicts.md C7: with FBEN_CLR_ON_SYNCCLR true, SYNC and FB_EN are always equal. -/
def Obligations.ClearParameterKeepsFlagsEqual : Prop :=
  ∀ s t : State, s.params.FBEN_CLR_ON_SYNCCLR = true → s.fbEn = s.sync → step s = .next t →
    t.fbEn = t.sync

/-- R70: while the clock-synced flag is clear and no SYNCSET comes, no PKT and no CAP runs. Every step
keeps the gate closed and runs neither; so over any number of steps the next command is never one of
the two, RSP_P, which only PKT answers on, does not grow, and PEND is kept or dropped, never refilled. -/
def Obligations.GateHoldsPackets : Prop :=
  (∀ s t : State, s.GateClosed → step s = .next t →
    ¬ s.RunsPacket ∧ t.GateClosed ∧ t.rsp.p = s.rsp.p ∧ (t.pend = s.pend ∨ t.pend = [])) ∧
  (∀ (n : Nat) (s t : State), s.GateClosed → runSteps n s = .next t →
    ¬ t.RunsPacket ∧ t.GateClosed ∧ t.rsp.p = s.rsp.p ∧ (t.pend = s.pend ∨ t.pend = []))

/-- R39, R69, R204: a turn of a port writes only the state of that port's row of the ownership table,
its own queue and its own responses. -/
def Obligations.PortWritesOnlyItsOwnState : Prop :=
  ∀ (q : Port) (s t : State) (es : List Event), s.agenda = .turn q :: es → step s = .next t →
    SameExcept (portWrites q ++ [.cmd q, .agenda]) s t

/-- R39, R65, R69: the turns of two of the ports P, C, F commute, whatever stands at their heads. -/
def Obligations.DataPortsCommute : Prop :=
  ∀ (q q' : Port) (s : State) (es : List Event), q ≠ .h → q' ≠ .h → q ≠ q' →
    runSteps 2 { s with agenda := .turn q :: .turn q' :: es } =
      runSteps 2 { s with agenda := .turn q' :: .turn q :: es }

/-- R237: under a weakly fair schedule without reset, a head word that can be taken for as long as it
stands at the head is eventually taken, on a turn of its port. Fairness is a premise, not part of the
machine (log entry 11). -/
def Obligations.FairScheduleTakesEveryTakeableHead : Prop :=
  ∀ (events : Nat → Event) (s : State) (q : Port) (w : Word) (n : Nat),
    s.params.Legal → (∀ m, events m ≠ .reset) → WeaklyFair events s →
    ((trace events s n).cmd.get q).head? = some w →
    (∀ m, n ≤ m → (∀ k, n ≤ k → k < m → events k ≠ .turn q) →
      canTake q (trace events s m) = true) →
    ∃ m, n ≤ m ∧ events m = .turn q ∧ ((trace events s m).cmd.get q).head? = some w ∧
      (trace events s (m + 1)).cmd.get q = ((trace events s m).cmd.get q).tail

/-- R238: a run that has ended, completed or stuck, shows nothing more: the observable result and the
queues stay as they are. That a completed run, too, has nothing more to come from the outside is the
model's choice (log entry 16). -/
def Obligations.EndedRunShowsNothingMore : Prop :=
  ∀ (n : Nat) (s t : State), s.Completed ∨ s.Stuck →
    runSteps n s = .next t →
    t.observe = s.observe ∧ t.cmd = s.cmd ∧ (s.Completed → t.Completed) ∧ (s.Stuck → t.Stuck)

/-- The `State written` lines of every command rule: every command answers a next state, and every
part it does not name is unchanged. For a PKT, CAP, W2N or N2W that is held, the next state is the
unchanged one by the model's convention, and the command has not run (log entry 6). -/
def Obligations.FrameOfEveryCommand : Prop :=
  ∀ (i : Instr) (s : State), ∃ t, exec i s = .next t ∧ SameExcept (writes i) s t

/-! ### The control commands -/

/-- R160: NOP, the all-zero word, on any port, does nothing but leave its queue. -/
def Obligations.NopDoesNothing : Prop :=
  (∀ s : State, exec .nop s = .next s) ∧
  (∀ (q : Port) (s : State) (rest : List Word) (es : List Event), s.params.Legal →
    s.agenda = .turn q :: es → s.cmd.get q = 0x00000000#32 :: rest →
    step s = .next { s with agenda := es, cmd := s.cmd.set q rest })

/-- R161: WR writes the shadow registers 8, 9, 10; every other number raises ILLREG and nothing else
changes. The numbers are those of the table of R23. -/
def Obligations.WrWritesShadowsOnly : Prop :=
  [RegName.id, .status, .err, .carry, .est, .rate, .nframe, .nomFb, .shRate, .shNframe, .shNomfb,
      .r11, .r12, .r13, .r14, .r15].map (fun r => (numberOfReg r).toNat) =
    [0, 1, 2, 3, 4, 5, 6, 7, 8, 9, 10, 11, 12, 13, 14, 15] ∧
  ∀ (s : State) (v : Reg),
    exec (.wr .shRate v) s = .next { s with shRate := v } ∧
    exec (.wr .shNframe v) s = .next { s with shNframe := v } ∧
    exec (.wr .shNomfb v) s = .next { s with shNomfb := v } ∧
    ∀ r : RegName, ((numberOfReg r).toNat < 8 ∨ 10 < (numberOfReg r).toNat) →
      exec (.wr r v) s = .next { s with illreg := true }

/-- R162: RD answers one word on RSP_H, the register zero-extended, and changes nothing else; numbers
11 to 15 answer 0 and raise ILLREG. -/
def Obligations.RdAnswersTheRegister : Prop :=
  ∀ (s : State) (r : RegName), ∃ t, exec (.rd r) s = .next t ∧
    ((numberOfReg r).toNat ≤ 10 →
      t = { s with rsp := { s.rsp with h := s.rsp.h ++ [(s.readReg r).setWidth 32] } }) ∧
    (10 < (numberOfReg r).toNat →
      t = { s with rsp := { s.rsp with h := s.rsp.h ++ [0#32] }, illreg := true }) ∧
    ∀ r' : RegName, r' ≠ .err → t.readReg r' = s.readReg r'

/-- R24 to R28, R31 to R35, R42: what each register reads as: the bits of STATUS and ERR, the carry
field, the identity constant, the seven value registers 4 to 10, and 0 for the reserved numbers; and
the output `err`. -/
def Obligations.RegisterLayouts : Prop :=
  ∀ s : State,
    (s.readReg .status).toNat = s.sync.toNat + 2 * s.fbEn.toNat + 4 * s.pbRun.toNat +
      8 * s.capRun.toNat + 16 * s.cfgValid.toNat ∧
    (s.readReg .err).toNat = s.illop.toNat + 2 * s.illreg.toNat + 4 * s.cfgerr.toNat +
      8 * s.seqerr.toNat ∧
    (s.Inv → (s.readReg .carry).toNat = s.pend.length) ∧
    (s.readReg .carry).toNat < 8 ∧
    s.readReg .id = 0x535743#24 ∧
    s.readReg .est = s.est ∧ s.readReg .rate = s.rate ∧ s.readReg .nframe = s.nframe ∧
    s.readReg .nomFb = s.nomFb ∧ s.readReg .shRate = s.shRate ∧
    s.readReg .shNframe = s.shNframe ∧ s.readReg .shNomfb = s.shNomfb ∧
    (∀ r : RegName, 10 < (numberOfReg r).toNat → s.readReg r = 0) ∧
    (s.errOut = true ↔ s.readReg .err ≠ 0)

/-- R163: SYNCCLR clears SYNC, and FB_EN only under the parameter; after it every PKT and CAP is held. -/
def Obligations.SyncclrClosesTheGate : Prop :=
  ∀ s : State, ∃ t, exec .syncclr s = .next t ∧ t.sync = false ∧
    (s.params.FBEN_CLR_ON_SYNCCLR = true → t.fbEn = false) ∧
    (s.params.FBEN_CLR_ON_SYNCCLR = false → t.fbEn = s.fbEn) ∧
    SameExcept [.sync, .fbEn] s t ∧
    ∀ n, enabled (.pkt n) t = false ∧ enabled (.cap n) t = false

/-- R164: SYNCSET loads EST with NOM_FB and sets FB_EN and SYNC in one step; with CFG_VALID 0 it raises
SEQERR and changes nothing else. -/
def Obligations.SyncsetFinishesReconfiguration : Prop :=
  ∀ s : State,
    (s.cfgValid = true → exec .syncset s = .next { s with est := s.nomFb, fbEn := true, sync := true }) ∧
    (s.cfgValid = false → exec .syncset s = .next { s with seqerr := true })

/-- R165: CFGLD replaces the active configuration with its shadow in one step, or raises CFGERR and
changes nothing else, when a direction runs or SH_NOMFB is outside the bounds. -/
def Obligations.CfgldReplacesConfiguration : Prop :=
  ∀ s : State,
    (s.pbRun = false → s.capRun = false → s.params.FB_MIN ≤ s.shNomfb.toNat →
      s.shNomfb.toNat ≤ s.params.FB_MAX →
      exec .cfgld s = .next { s with rate := s.shRate, nframe := s.shNframe, nomFb := s.shNomfb, cfgValid := true }) ∧
    (s.pbRun = true ∨ s.capRun = true ∨ s.shNomfb.toNat < s.params.FB_MIN ∨
      s.params.FB_MAX < s.shNomfb.toNat →
      exec .cfgld s = .next { s with cfgerr := true })

/-- R166 to R169: PSTART and PSTOP clear CARRY, drop the pending bytes and set or clear PB_RUN; CSTART
and CSTOP set or clear CAP_RUN; nothing else changes. -/
def Obligations.StartAndStopCommands : Prop :=
  ∀ s : State,
    exec .pstart s = .next { s with pend := [], pbRun := true } ∧
    exec .pstop s = .next { s with pend := [], pbRun := false } ∧
    exec .cstart s = .next { s with capRun := true } ∧
    exec .cstop s = .next { s with capRun := false } ∧
    ∀ t, (exec .pstart s = .next t ∨ exec .pstop s = .next t) →
      t.carry = 0 ∧ t.readReg .carry = 0

/-- R170, R207, R223: RECONF ends with exactly the asked directions running (so with the running ones,
when the host asks for those), the new configuration active, EST at its nominal value, SYNC and FB_EN
set, the carry empty and no new error, and touches nothing else; from any state, reset included. -/
def Obligations.ReconfPreservesDirections : Prop :=
  ∀ (s : State) (rate nframe nomfb : Reg) (pb cap : Bool),
    s.params.FB_MIN ≤ nomfb.toNat → nomfb.toNat ≤ s.params.FB_MAX →
    ∃ t, execAll (reconf rate nframe nomfb pb cap) s = .next t ∧
      t.pbRun = pb ∧ t.capRun = cap ∧ t.rate = rate ∧ t.nframe = nframe ∧
      t.nomFb = nomfb ∧ t.est = nomfb ∧ t.sync = true ∧ t.fbEn = true ∧ t.cfgValid = true ∧
      t.carry = 0 ∧
      SameExcept [.sync, .fbEn, .pbRun, .capRun, .cfgValid, .pend, .est, .rate, .nframe, .nomFb,
        .shRate, .shNframe, .shNomfb] s t

/-! ### The Sample-Width Converter -/

/-- R112, R113: the values of the two conversion functions. -/
def Obligations.WidthConversionValues : Prop :=
  (∀ b0 b1 b2 : Byte,
    (w2nCh b0 b1 b2).toNat = (b0.toNat + 256 * b1.toNat + 65536 * b2.toNat) * 256) ∧
  (∀ n : Word, (n2wCh n).map BitVec.toNat =
    [n.toNat / 2 ^ 8 % 256, n.toNat / 2 ^ 16 % 256, n.toNat / 2 ^ 24])

/-- R117: wire to native and back is the identity; native to wire and back clears bits 7:0. -/
def Obligations.WidthConversionRoundTrips : Prop :=
  (∀ b0 b1 b2 : Byte, n2wCh (w2nCh b0 b1 b2) = [b0, b1, b2]) ∧
  (∀ (n : Word) (b0 b1 b2 : Byte), n2wCh n = [b0, b1, b2] →
    (w2nCh b0 b1 b2).toNat = n.toNat - n.toNat % 256) ∧
  (∀ ws : List Word, wireToNative (nativeToWire ws) = ws.map (· &&& 0xFFFFFF00#32))

/-- R114: W2N is enabled when its bytes are there; it pops `W * n` bytes and pushes the `CH * n` words
of the rule's comprehension; nothing else changes. -/
def Obligations.W2nConvertsGroups : Prop :=
  ∀ (s : State) (n : Nat),
    (enabled (.w2n n) s = true ↔ s.params.W * n ≤ s.wireIn.length) ∧
    (s.params.Legal → s.params.W * n ≤ s.wireIn.length →
      exec (.w2n n) s = .next { s with
        wireIn := s.wireIn.drop (s.params.W * n)
        nativeOut := s.nativeOut ++
          wordsAt (s.wireIn.take (s.params.W * n)) (s.params.CH * n) })

/-- R115: N2W is enabled when its words are there; it pops `CH * n` words and pushes their `W * n`
bytes; nothing else changes. -/
def Obligations.N2wConvertsGroups : Prop :=
  ∀ (s : State) (n : Nat),
    (enabled (.n2w n) s = true ↔ s.params.CH * n ≤ s.nativeIn.length) ∧
    (s.params.Legal → s.params.CH * n ≤ s.nativeIn.length →
      ∃ out, exec (.n2w n) s = .next { s with
          nativeIn := s.nativeIn.drop (s.params.CH * n)
          wireOut := s.wireOut ++ out } ∧
        out.length = s.params.W * n ∧
        IsWireOf out (s.nativeIn.take (s.params.CH * n)) (s.params.CH * n))

/-- R116: an enabled W2N gives 4/3 of the bytes it takes (a word is 4 bytes); an enabled N2W gives 3/4. -/
def Obligations.ConversionLengths : Prop :=
  (∀ (s t : State) (n : Nat), s.params.Legal → enabled (.w2n n) s = true →
    exec (.w2n n) s = .next t →
    3 * (4 * (t.nativeOut.length - s.nativeOut.length)) =
        4 * (s.wireIn.length - t.wireIn.length) ∧
      s.wireIn.length - t.wireIn.length = 3 * s.params.CH * n) ∧
  (∀ (s t : State) (n : Nat), s.params.Legal → enabled (.n2w n) s = true →
    exec (.n2w n) s = .next t →
    4 * (t.wireOut.length - s.wireOut.length) =
        3 * (4 * (s.nativeIn.length - t.nativeIn.length)) ∧
      t.wireOut.length - s.wireOut.length = 3 * s.params.CH * n)

/-! ### The Realignment Engine -/

/-- R121, R122: PKT is enabled when the gate is open and its bytes are there; it emits the whole
sample-groups of pending bytes then packet, keeps the trailing bytes as PEND and their number as
CARRY, and answers the group count on RSP_P; nothing else changes. -/
def Obligations.PktRealigns : Prop :=
  ∀ (s : State) (L : Nat),
    (enabled (.pkt L) s = true ↔ s.sync = true ∧ s.pbRun = true ∧ L ≤ s.wireIn.length) ∧
    (s.params.Legal → s.sync = true → s.pbRun = true → L ≤ s.wireIn.length →
      ∃ t, exec (.pkt L) s = .next t ∧
        t = { s with
          wireIn := s.wireIn.drop L
          nativeOut := s.nativeOut ++
            wordsAt (s.pend ++ s.wireIn.take L) (s.params.CH * ((s.carry + L) / s.params.W))
          pend := (s.pend ++ s.wireIn.take L).drop (s.params.W * ((s.carry + L) / s.params.W))
          rsp := { s.rsp with
            p := s.rsp.p ++ [BitVec.ofNat 32 (((s.carry + L) / s.params.W) % 2 ^ 24)] } } ∧
        t.carry = (s.carry + L) % s.params.W ∧
        (s.Inv → L < 2 ^ 24 → (s.carry + L) / s.params.W < 2 ^ 24))

/-- R123: the emission plan in three parts gives the words and the pending bytes of PKT, when the packet
reaches the end of the pending group. -/
def Obligations.PktEmissionPlan : Prop :=
  ∀ (s t : State) (L : Nat), s.Inv → enabled (.pkt L) s = true →
    (s.params.W - s.carry) % s.params.W ≤ L → exec (.pkt L) s = .next t →
    let k := (s.params.W - s.carry) % s.params.W
    let p := s.wireIn.take L
    let runs := (L - k) / s.params.W
    t.nativeOut = s.nativeOut ++
        (if 0 < s.carry then wordsAt (s.pend ++ p.take k) s.params.CH else []) ++
        wordsAt (p.drop k) (s.params.CH * runs) ∧
      t.pend = p.drop (k + s.params.W * runs) ∧
      t.carry = (s.carry + L) % s.params.W

/-- R124: a packet that does not complete the pending group is appended to PEND, pushes nothing and answers 0. -/
def Obligations.PktShortPacketAccumulates : Prop :=
  ∀ (s : State) (L : Nat), s.params.Legal → enabled (.pkt L) s = true →
    s.carry + L < s.params.W →
    exec (.pkt L) s = .next { s with
      wireIn := s.wireIn.drop L
      pend := s.pend ++ s.wireIn.take L
      rsp := { s.rsp with p := s.rsp.p ++ [0#32] } }

/-- R125: a zero-length packet moves nothing, keeps CARRY and PEND, answers 0, and is still gated. -/
def Obligations.PktZeroLengthIsNoOp : Prop :=
  ∀ s : State, s.Inv →
    (s.sync = true → s.pbRun = true →
      exec (.pkt 0) s = .next { s with rsp := { s.rsp with p := s.rsp.p ++ [0#32] } }) ∧
    (s.sync = false ∨ s.pbRun = false → enabled (.pkt 0) s = false)

/-- R127: for `W = 3`, the explicit transition table (rows: CARRY before; columns: `L mod 3`). -/
def Obligations.PktTransitionTableMono : Prop :=
  ∀ (s t : State) (L : Nat), s.Inv → s.params.W = 3 → enabled (.pkt L) s = true →
    exec (.pkt L) s = .next t →
    let q := L / 3
    let groups := t.nativeOut.length - s.nativeOut.length
    (s.carry, L % 3, t.carry, groups) ∈
      [(0, 0, 0, q), (0, 1, 1, q), (0, 2, 2, q),
       (1, 0, 1, q), (1, 1, 2, q), (1, 2, 0, q + 1),
       (2, 0, 2, q), (2, 1, 0, q + 1), (2, 2, 1, q + 1)]

/-- R126: the cumulative law. Whatever the packet lengths, PKTs from CARRY 0 push the words W2N would
push from the concatenated payloads, answer `floor(S / W)` groups in all, and leave `S mod W` bytes pending. -/
def Obligations.PktCumulativeLaw : Prop :=
  ∀ (s : State) (lens : List Nat), s.params.Legal → s.sync = true → s.pbRun = true →
    s.carry = 0 → lens.sum ≤ s.wireIn.length →
    ∃ t, execAll (lens.map .pkt) s = .next t ∧
      let total := lens.sum
      let groups := total / s.params.W
      SameExcept [.wireIn, .nativeOut, .pend, .rsp .p] s t ∧
      t.wireIn = s.wireIn.drop total ∧
      t.nativeOut = s.nativeOut ++ wordsAt s.wireIn (s.params.CH * groups) ∧
      t.carry = total % s.params.W ∧
      t.pend = (s.wireIn.take total).drop (s.params.W * groups) ∧
      (∃ u, exec (.w2n groups) s = .next u ∧ u.nativeOut = t.nativeOut) ∧
      ∃ answers : List Word, t.rsp.p = s.rsp.p ++ answers ∧ answers.length = lens.length ∧
        ((∀ L ∈ lens, L < 2 ^ 24) → (answers.map BitVec.toNat).sum = groups)

/-- R128: native words sent through N2W and back through the engine, under any split into packets, come
back with bits 7:0 cleared, and the carry ends at 0. -/
def Obligations.PktRoundTripWithConverter : Prop :=
  ∀ (s t u : State) (N : Nat) (lens : List Nat), s.params.Legal →
    enabled (.n2w N) s = true → exec (.n2w N) s = .next t →
    u.params = s.params → u.sync = true → u.pbRun = true → u.carry = 0 →
    u.wireIn = t.wireOut.drop s.wireOut.length → lens.sum = s.params.W * N →
    ∃ v, execAll (lens.map .pkt) u = .next v ∧
      v.nativeOut = u.nativeOut ++ (s.nativeIn.take (s.params.CH * N)).map (· &&& 0xFFFFFF00#32) ∧
      v.carry = 0 ∧ v.wireIn = []

/-- R8: no command reads MAXPKT: run under another promise, it does the same. -/
def Obligations.MaxPktIsReadByNoCommand : Prop :=
  ∀ (i : Instr) (s t : State) (m : Nat), exec i s = .next t →
    exec i { s with params := { s.params with MAXPKT := m } } =
      .next { t with params := { t.params with MAXPKT := m } }

/-! ### The Adaptive Capture Frame Sizer -/

/-- R135, R136: FSIZE answers the frame size on RSP_C and changes nothing else; the frame size, over
the integers, with the floor at 0 and the clamp at NMAX. -/
def Obligations.FsizeAnswersFrameSize : Prop :=
  ∀ (s : State) (occ : Nat), s.params.Legal →
    exec (.fsize occ) s = .next { s with
      rsp := { s.rsp with c := s.rsp.c ++ [BitVec.ofNat 32 (s.frameSize occ)] } } ∧
    s.frameSize occ ≤ s.params.NMAX ∧ s.frameSize occ < 2 ^ 24 ∧
    (occ > s.nframe.toNat + 1 →
      (s.frameSize occ : Int) = min ((s.nframe.toNat : Int) + s.params.DELTA) s.params.NMAX) ∧
    (occ < s.nframe.toNat →
      (s.frameSize occ : Int) =
        min (max ((s.nframe.toNat : Int) - s.params.DELTA) 0) s.params.NMAX) ∧
    (occ = s.nframe.toNat ∨ occ = s.nframe.toNat + 1 →
      (s.frameSize occ : Int) = min (s.nframe.toNat : Int) s.params.NMAX)

/-- R138: the answer of FSIZE depends on nothing but `occ`, NFRAME, DELTA and NMAX, and takes at most three values. -/
def Obligations.FrameSizeHasNoHistory : Prop :=
  (∀ (s s' : State) (occ : Nat), s.nframe = s'.nframe → s.params.DELTA = s'.params.DELTA →
    s.params.NMAX = s'.params.NMAX → s.rsp.c = s'.rsp.c →
    ∀ t t', exec (.fsize occ) s = .next t → exec (.fsize occ) s' = .next t' → t.rsp.c = t'.rsp.c) ∧
  (∀ (s : State) (occ : Nat), s.frameSize occ ∈
    [min (s.nframe.toNat + s.params.DELTA) s.params.NMAX,
     min (s.nframe.toNat - s.params.DELTA) s.params.NMAX,
     min s.nframe.toNat s.params.NMAX])

/-- R137: CAP is enabled when the gate is open and the words of its frame are there; it pops `CH * N`
words, pushes their `W * N` bytes and answers `N`, for the frame size `N`; nothing else changes. -/
def Obligations.CapSendsOneFrame : Prop :=
  ∀ (s : State) (occ : Nat),
    (enabled (.cap occ) s = true ↔
      s.sync = true ∧ s.capRun = true ∧ s.params.CH * s.frameSize occ ≤ s.nativeIn.length) ∧
    (s.params.Legal → s.sync = true → s.capRun = true →
      s.params.CH * s.frameSize occ ≤ s.nativeIn.length →
      ∃ out, exec (.cap occ) s = .next { s with
          nativeIn := s.nativeIn.drop (s.params.CH * s.frameSize occ)
          wireOut := s.wireOut ++ out
          rsp := { s.rsp with c := s.rsp.c ++ [BitVec.ofNat 32 (s.frameSize occ)] } } ∧
        out.length = s.params.W * s.frameSize occ ∧
        IsWireOf out (s.nativeIn.take (s.params.CH * s.frameSize occ))
          (s.params.CH * s.frameSize occ))

/-- R137: an enabled CAP is FSIZE followed by N2W of the answer. -/
def Obligations.CapIsFsizeThenN2w : Prop :=
  ∀ (s : State) (occ : Nat), enabled (.cap occ) s = true →
    exec (.cap occ) s = execAll [.fsize occ, .n2w (s.frameSize occ)] s

/-! ### The Feedback Rate Estimator -/

/-- R146, R147: with FB_EN 1, TICK steps EST over the integers with saturation and publishes the new
value, least significant byte first; with FB_EN 0 it does nothing at all. -/
def Obligations.TickStepsAndPublishes : Prop :=
  ∀ (s : State) (occ : Nat), s.params.Legal →
    (s.fbEn = false → exec (.tick occ) s = .next s) ∧
    (s.fbEn = true → ∃ e : Reg,
      exec (.tick occ) s = .next { s with
        est := e
        fbOut := s.fbOut ++ [e.extractLsb' 0 8, e.extractLsb' 8 8, e.extractLsb' 16 8] } ∧
      ((occ : Int) < (s.nframe.toNat : Int) - 1 →
        (e.toNat : Int) = min ((s.est.toNat : Int) + s.params.QUANTUM) s.params.FB_MAX) ∧
      ((s.nframe.toNat : Int) + 1 < occ →
        (e.toNat : Int) = max ((s.est.toNat : Int) - s.params.QUANTUM) s.params.FB_MIN) ∧
      ((s.nframe.toNat : Int) - 1 ≤ occ → (occ : Int) ≤ (s.nframe.toNat : Int) + 1 → e = s.est))

/-- R151, R152, R15: one TICK changes EST by at most QUANTUM, that is by at most `QUANTUM / 2^14`
samples per frame, and never leaves the bounds. -/
def Obligations.TickChangeIsBounded : Prop :=
  ∀ (s t : State) (occ : Nat), s.Inv → exec (.tick occ) s = .next t →
    |fixedValue t.est - fixedValue s.est| ≤ (s.params.QUANTUM : ℚ) / 2 ^ 14 ∧
    (s.fbEn = true → s.params.FB_MIN ≤ t.est.toNat ∧ t.est.toNat ≤ s.params.FB_MAX)

/-- R150: with the occupancy in the dead band, any number of TICKs leave EST unchanged and publish the
same three bytes each time. -/
def Obligations.TickSteadyState : Prop :=
  ∀ (s : State) (n occ : Nat), s.params.Legal → s.fbEn = true →
    s.nframe.toNat ≤ occ + 1 → occ ≤ s.nframe.toNat + 1 →
    execAll (List.replicate n (.tick occ)) s = .next { s with
      fbOut := s.fbOut ++ (List.replicate n (bytesOfReg s.est)).flatten }

/-- R15, R54: a 10.14 value is its integer part plus its fraction, and its three published bytes give it back. -/
def Obligations.FixedPointFormat : Prop :=
  ∀ v : Reg,
    fixedValue v = (fixedInt v).toNat + ((fixedFrac v).toNat : ℚ) / 2 ^ 14 ∧
    ∃ b0 b1 b2 : Byte, bytesOfReg v = [b0, b1, b2] ∧
      v.toNat = b0.toNat + 256 * b1.toNat + 65536 * b2.toNat
end

