-- ==== Sys2Proof/Laws/Convert.lean ====
section
/-! SUPPORT. The width conversion over sequences (41_converter.md R111, R116): lengths, concatenation, and the form by index. -/

namespace Sys2Proof.Machine

@[simp] theorem n2wCh_length (n : Word) : (n2wCh n).length = 3 := rfl

@[simp] theorem bytesOfReg_length (v : Reg) : (bytesOfReg v).length = 3 := rfl

@[simp] theorem nativeToWire_nil : nativeToWire [] = [] := rfl

@[simp] theorem nativeToWire_cons (w : Word) (ws : List Word) :
    nativeToWire (w :: ws) = n2wCh w ++ nativeToWire ws := rfl

@[simp] theorem nativeToWire_append (ws vs : List Word) :
    nativeToWire (ws ++ vs) = nativeToWire ws ++ nativeToWire vs := by
  simp [nativeToWire]

@[simp] theorem nativeToWire_length (ws : List Word) :
    (nativeToWire ws).length = 3 * ws.length := by
  induction ws with
  | nil => rfl
  | cons w ws ih => simp [ih]; omega

@[simp] theorem wireToNative_nil : wireToNative [] = [] := rfl

@[simp] theorem wireToNative_cons (b0 b1 b2 : Byte) (bs : List Byte) :
    wireToNative (b0 :: b1 :: b2 :: bs) = w2nCh b0 b1 b2 :: wireToNative bs := rfl

/-- Three bytes make a word. -/
theorem wireToNative_length (bs : List Byte) : (wireToNative bs).length = bs.length / 3 := by
  induction bs using wireToNative.induct with
  | case1 b0 b1 b2 rest ih => simp [ih]; omega
  | case2 bs h =>
    match bs, h with
    | [], _ => rfl
    | [_], _ => simp [wireToNative]
    | [_, _], _ => simp [wireToNative]
    | b0 :: b1 :: b2 :: rest, h => exact absurd rfl (h b0 b1 b2 rest)

/-- Whole words first: conversion of a concatenation whose first part is whole. -/
theorem wireToNative_append (bs cs : List Byte) (h : bs.length % 3 = 0) :
    wireToNative (bs ++ cs) = wireToNative bs ++ wireToNative cs := by
  induction bs using wireToNative.induct with
  | case1 b0 b1 b2 rest ih =>
    have : rest.length % 3 = 0 := by simp at h; omega
    simp [ih this]
  | case2 bs h' =>
    match bs, h' with
    | [], _ => rfl
    | [_], _ => simp at h
    | [_, _], _ => simp at h
    | b0 :: b1 :: b2 :: rest, h' => exact absurd rfl (h' b0 b1 b2 rest)

@[simp] theorem wordsAt_zero (b : List Byte) : wordsAt b 0 = [] := rfl

@[simp] theorem wordsAt_length (b : List Byte) (k : Nat) : (wordsAt b k).length = k := by
  simp [wordsAt]

theorem wordsAt_cons (b0 b1 b2 : Byte) (b : List Byte) (k : Nat) :
    wordsAt (b0 :: b1 :: b2 :: b) (k + 1) = w2nCh b0 b1 b2 :: wordsAt b k := by
  simp only [wordsAt, List.range_succ_eq_map, List.map_cons, List.map_map]
  refine congrArg₂ List.cons rfl (List.map_congr_left fun j _ => ?_)
  simp [Function.comp, show 3 * (j + 1) = 3 * j + 3 by omega,
    show 3 * j + 3 + 1 = 3 * j + 1 + 3 by omega, show 3 * j + 3 + 2 = 3 * j + 2 + 3 by omega]

/-- The first `k` words of a byte sequence that holds them, by index. -/
theorem wireToNative_take (b : List Byte) (k : Nat) (h : 3 * k ≤ b.length) :
    wireToNative (b.take (3 * k)) = wordsAt b k := by
  induction k generalizing b with
  | zero => rfl
  | succ k ih =>
    match b, h with
    | b0 :: b1 :: b2 :: rest, h =>
      have h' : 3 * k ≤ rest.length := by simp at h; omega
      rw [show 3 * (k + 1) = 3 * k + 1 + 1 + 1 by omega]
      simp [ih rest h', wordsAt_cons]
    | [], h => simp at h
    | [_], h => simp at h; omega
    | [_, _], h => simp at h; omega

/-- Only the first `3k` bytes matter for the first `k` words. -/
theorem wordsAt_take (b : List Byte) (k m : Nat) (h : 3 * k ≤ m) :
    wordsAt (b.take m) k = wordsAt b k := by
  simp only [wordsAt]
  apply List.map_congr_left
  intro j hj
  have hj := List.mem_range.mp hj
  simp only [List.getD_eq_getElem?_getD, List.getElem?_take]
  simp [show 3 * j < m by omega, show 3 * j + 1 < m by omega, show 3 * j + 2 < m by omega]

/-- The words of `k + l` groups are the words of the first `k`, then those of the rest. -/
theorem wordsAt_add (b : List Byte) (k l : Nat) :
    wordsAt b (k + l) = wordsAt b k ++ wordsAt (b.drop (3 * k)) l := by
  simp only [wordsAt, List.range_add, List.map_append, List.map_map]
  congr 1
  apply List.map_congr_left
  intro j _
  simp only [Function.comp, List.getD_eq_getElem?_getD, List.getElem?_drop, Nat.mul_add,
    Nat.add_assoc]

end Sys2Proof.Machine
end

