-- ==== Sys2Proof/Laws/Decode.lean ====
section
/-! SUPPORT. The fields of a command word, and which row of the opcode map a word selects. -/

namespace Sys2Proof

/-! ### Fields -/

/-- The word of three fields, as a number. -/
theorem wordOfFields_toNat (op a : BitVec 4) (imm : BitVec 24) :
    (wordOfFields op a imm).toNat = op.toNat * 2 ^ 28 + a.toNat * 2 ^ 24 + imm.toNat := by
  simp only [wordOfFields, toNat_append_add]
  omega

theorem opField_toNat (w : Word) : (opField w).toNat = w.toNat / 2 ^ 28 := by
  have := w.isLt
  simp only [opField, toNat_extract]
  omega

theorem aField_toNat (w : Word) : (aField w).toNat = w.toNat / 2 ^ 24 % 16 := by
  rw [aField, toNat_extract, show (2 : Nat) ^ 4 = 16 from rfl]

theorem immField_toNat (w : Word) : (immField w).toNat = w.toNat % 2 ^ 24 := by
  simp [immField]

@[simp] theorem opField_wordOfFields (op a : BitVec 4) (imm : BitVec 24) :
    opField (wordOfFields op a imm) = op := by
  apply BitVec.eq_of_toNat_eq
  rw [opField_toNat, wordOfFields_toNat]
  omega

@[simp] theorem aField_wordOfFields (op a : BitVec 4) (imm : BitVec 24) :
    aField (wordOfFields op a imm) = a := by
  apply BitVec.eq_of_toNat_eq
  rw [aField_toNat, wordOfFields_toNat]
  omega

@[simp] theorem immField_wordOfFields (op a : BitVec 4) (imm : BitVec 24) :
    immField (wordOfFields op a imm) = imm := by
  apply BitVec.eq_of_toNat_eq
  rw [immField_toNat, wordOfFields_toNat]
  omega

/-- A word is its three fields. -/
theorem wordOfFields_fields (w : Word) : wordOfFields (opField w) (aField w) (immField w) = w := by
  apply BitVec.eq_of_toNat_eq
  rw [wordOfFields_toNat, opField_toNat, aField_toNat, immField_toNat]
  omega

/-! ### Register numbers -/

@[simp] theorem regOfNumber_numberOfReg (r : RegName) : regOfNumber (numberOfReg r) = r := by
  cases r <;> rfl

@[simp] theorem numberOfReg_regOfNumber (a : BitVec 4) : numberOfReg (regOfNumber a) = a := by
  revert a
  decide

/-! ### Rows -/

/-- A mask given by fields masks field by field. -/
theorem and_wordOfFields (op a op' a' : BitVec 4) (imm imm' : BitVec 24) :
    wordOfFields op a imm &&& wordOfFields op' a' imm' =
      wordOfFields (op &&& op') (a &&& a') (imm &&& imm') := by
  simp only [wordOfFields]
  rw [BitVec.and_append, BitVec.and_append]

theorem wordOfFields_inj {op a op' a' : BitVec 4} {imm imm' : BitVec 24} :
    wordOfFields op a imm = wordOfFields op' a' imm' ↔ op = op' ∧ a = a' ∧ imm = imm' := by
  constructor
  · intro h
    refine ⟨?_, ?_, ?_⟩
    · simpa using congrArg opField h
    · simpa using congrArg aField h
    · simpa using congrArg immField h
  · rintro ⟨rfl, rfl, rfl⟩
    rfl

/-- A row whose mask and pattern are given by fields selects by fields. -/
theorem Row.selects_iff {r : Row} {mo ma po pa : BitVec 4} {mi pi : BitVec 24}
    (hm : r.mask = wordOfFields mo ma mi) (hp : r.pattern = wordOfFields po pa pi) (w : Word) :
    r.selects w = true ↔
      opField w &&& mo = po ∧ aField w &&& ma = pa ∧ immField w &&& mi = pi := by
  conv_lhs => rw [← wordOfFields_fields w]
  simp [Row.selects, hm, hp, and_wordOfFields, wordOfFields_inj]

/-- The mnemonic a word selects, by its fields. -/
def mnemonicOfFields (op a : BitVec 4) (imm : BitVec 24) : Option Mnemonic :=
  match op.toNat with
  | 0 => if a = 0 ∧ imm = 0 then some .NOP else none
  | 1 => some .WR
  | 2 => if imm = 0 then some .RD else none
  | 3 =>
    if imm = 0 then
      match a.toNat with
      | 0 => some .SYNCCLR
      | 1 => some .SYNCSET
      | 2 => some .CFGLD
      | 4 => some .PSTART
      | 5 => some .PSTOP
      | 6 => some .CSTART
      | 7 => some .CSTOP
      | _ => none
    else none
  | 4 => if a = 0 then some .W2N else none
  | 5 => if a = 0 then some .N2W else none
  | 6 => if a = 0 then some .PKT else none
  | 7 => if a = 0 then some .CAP else none
  | 8 => if a = 0 then some .FSIZE else none
  | 9 => if a = 0 then some .TICK else none
  | _ => none

/-- Selection by fields; `z` says whether `imm` is 0. -/
def selectsFields (r : Row) (op a : BitVec 4) (z : Bool) : Bool :=
  (op &&& opField r.mask == opField r.pattern) && (a &&& aField r.mask == aField r.pattern) &&
    (z || immField r.mask == 0)

theorem selects_wordOfFields {r : Row} (hr : r ∈ opcodeTable) (op a : BitVec 4)
    (imm : BitVec 24) :
    r.selects (wordOfFields op a imm) = selectsFields r op a (imm == 0) := by
  have key : ∀ r ∈ opcodeTable,
      immField r.pattern = 0 ∧ (immField r.mask = 0 ∨ immField r.mask = BitVec.allOnes 24) := by
    decide
  obtain ⟨hp, hm⟩ := key r hr
  have e := Row.selects_iff (wordOfFields_fields r.mask).symm (wordOfFields_fields r.pattern).symm
    (wordOfFields op a imm)
  rw [Bool.eq_iff_iff, e]
  have hones : imm &&& 16777215#24 = imm := (BitVec.and_allOnes : imm &&& BitVec.allOnes 24 = imm)
  rcases hm with hm | hm <;> simp [selectsFields, hp, hm, hones, and_assoc]

theorem selects_congr (l : List Row) (hl : ∀ r ∈ l, r ∈ opcodeTable) (op a : BitVec 4)
    (imm : BitVec 24) :
    l.find? (·.selects (wordOfFields op a imm)) = l.find? (selectsFields · op a (imm == 0)) := by
  induction l with
  | nil => rfl
  | cons r l ih =>
    simp only [List.find?_cons, selects_wordOfFields (hl r (by simp)),
      ih (fun x hx => hl x (by simp [hx]))]

/-- The row a word selects, found by its fields. -/
theorem rowOf_eq (w : Word) :
    rowOf w = opcodeTable.find? (selectsFields · (opField w) (aField w) (immField w == 0)) := by
  conv_lhs => rw [← wordOfFields_fields w]
  rw [rowOf, selects_congr _ (fun _ h => h)]

/-- Which mnemonic a word selects, by its fields. -/
theorem rowOf_mnemonic (w : Word) :
    (rowOf w).map Row.mnemonic = mnemonicOfFields (opField w) (aField w) (immField w) := by
  rw [rowOf_eq]
  have key : ∀ (op a : BitVec 4) (z : Bool), ∀ imm : BitVec 24, (imm == 0) = z →
      (opcodeTable.find? (selectsFields · op a z)).map Row.mnemonic = mnemonicOfFields op a imm := by
    intro op a z imm hz
    have hz' : (imm = 0) = (z = true) := by simp [← hz]
    simp only [mnemonicOfFields, hz']
    clear hz hz' imm
    revert op a z
    decide
  exact key _ _ _ _ rfl

theorem mem_of_rowOf {w : Word} {r : Row} (h : rowOf w = some r) : r ∈ opcodeTable :=
  List.mem_of_find?_eq_some h

theorem rowOf_eq_none {w : Word} : rowOf w = none ↔ ∀ r ∈ opcodeTable, r.selects w = false := by
  simp [rowOf, List.find?_eq_none]

/-- The ports of a row are the ports of its command: the two tables of R84 and R86 agree. -/
theorem ports_buildInstr {r : Row} (hr : r ∈ opcodeTable) (a : BitVec 4) (imm : BitVec 24) :
    (buildInstr r.mnemonic a imm).ports = r.ports := by
  have key : ∀ r ∈ opcodeTable, ∀ i : Instr, i.ports = (buildInstr r.mnemonic 0 0).ports →
      i.ports = r.ports := by
    have h : ∀ r ∈ opcodeTable, (buildInstr r.mnemonic 0 0).ports = r.ports := by decide
    intro r hr i hi
    rw [hi, h r hr]
  apply key r hr
  cases r.mnemonic <;> rfl

/-- Decoding on a port is decoding, then the check of the port's rights (R87). -/
theorem decodeOn_eq (q : Port) (w : Word) :
    decodeOn q w = match decode w with
      | .ok i => if q.Allows i then .ok i else .error .notAllowedOnPort
      | .error e => .error e := by
  unfold decodeOn decode
  cases h : rowOf w with
  | none => rfl
  | some r => simp [ports_buildInstr (mem_of_rowOf h), Port.Allows]

/-- A command decoded on a port is allowed there. -/
theorem allows_of_decodeOn {q : Port} {w : Word} {i : Instr} (h : decodeOn q w = .ok i) :
    q.Allows i ∧ decode w = .ok i := by
  rw [decodeOn_eq] at h
  split at h
  · split at h
    · injection h with h
      subst h
      exact ⟨by assumption, by assumption⟩
    · simp at h
  · simp at h

/-- The command a word decodes to, by its fields. -/
theorem decode_eq (w : Word) :
    decode w = match mnemonicOfFields (opField w) (aField w) (immField w) with
      | some m => .ok (buildInstr m (aField w) (immField w))
      | none => .error .reservedWord := by
  rw [← rowOf_mnemonic]
  unfold decode
  cases rowOf w <;> rfl

end Sys2Proof
end

