-- ==== Sys2Proof/Laws/State.lean ====
section
/-! SUPPORT. What each update does to each field of the state: one lemma per field per update, true by rfl. -/

namespace Sys2Proof.Machine

/-! ### One item per port -/

@[simp] theorem PerPort.get_set {α : Type} (x : PerPort α) (q q' : Port) (v : α) :
    (x.set q v).get q' = if q' = q then v else x.get q' := by
  cases q <;> cases q' <;> rfl

theorem PerPort.get_set_self {α : Type} (x : PerPort α) (q : Port) (v : α) :
    (x.set q v).get q = v := by simp

theorem PerPort.get_set_of_ne {α : Type} (x : PerPort α) {q q' : Port} (h : q' ≠ q) (v : α) :
    (x.set q v).get q' = x.get q' := by simp [h]

/-- Two families with the same item at every port are the same. -/
theorem PerPort.ext_get {α : Type} {x y : PerPort α} (h : ∀ q, x.get q = y.get q) : x = y := by
  have hh := h .h
  have hp := h .p
  have hc := h .c
  have hf := h .f
  cases x
  cases y
  simp_all [PerPort.get]

/-- Sets at two different ports commute. -/
theorem PerPort.set_comm {α : Type} (x : PerPort α) {q q' : Port} (h : q ≠ q') (v v' : α) :
    (x.set q v).set q' v' = (x.set q' v').set q v := by
  cases q <;> cases q' <;> first | rfl | exact absurd rfl h

@[simp] theorem PerPort.set_set {α : Type} (x : PerPort α) (q : Port) (v v' : α) :
    (x.set q v).set q v' = x.set q v' := by
  cases q <;> rfl

@[simp] theorem PerPort.set_get {α : Type} (x : PerPort α) (q : Port) : x.set q (x.get q) = x := by
  cases q <;> rfl

/-! ### respond -/

section
variable (s : State) (q : Port) (v : Reg)

@[simp] theorem State.respond_params : (s.respond q v).params = s.params := rfl
@[simp] theorem State.respond_sync : (s.respond q v).sync = s.sync := rfl
@[simp] theorem State.respond_fbEn : (s.respond q v).fbEn = s.fbEn := rfl
@[simp] theorem State.respond_pbRun : (s.respond q v).pbRun = s.pbRun := rfl
@[simp] theorem State.respond_capRun : (s.respond q v).capRun = s.capRun := rfl
@[simp] theorem State.respond_cfgValid : (s.respond q v).cfgValid = s.cfgValid := rfl
@[simp] theorem State.respond_illop : (s.respond q v).illop = s.illop := rfl
@[simp] theorem State.respond_illreg : (s.respond q v).illreg = s.illreg := rfl
@[simp] theorem State.respond_cfgerr : (s.respond q v).cfgerr = s.cfgerr := rfl
@[simp] theorem State.respond_seqerr : (s.respond q v).seqerr = s.seqerr := rfl
@[simp] theorem State.respond_pend : (s.respond q v).pend = s.pend := rfl
@[simp] theorem State.respond_est : (s.respond q v).est = s.est := rfl
@[simp] theorem State.respond_rate : (s.respond q v).rate = s.rate := rfl
@[simp] theorem State.respond_nframe : (s.respond q v).nframe = s.nframe := rfl
@[simp] theorem State.respond_nomFb : (s.respond q v).nomFb = s.nomFb := rfl
@[simp] theorem State.respond_shRate : (s.respond q v).shRate = s.shRate := rfl
@[simp] theorem State.respond_shNframe : (s.respond q v).shNframe = s.shNframe := rfl
@[simp] theorem State.respond_shNomfb : (s.respond q v).shNomfb = s.shNomfb := rfl
@[simp] theorem State.respond_wireIn : (s.respond q v).wireIn = s.wireIn := rfl
@[simp] theorem State.respond_nativeIn : (s.respond q v).nativeIn = s.nativeIn := rfl
@[simp] theorem State.respond_nativeOut : (s.respond q v).nativeOut = s.nativeOut := rfl
@[simp] theorem State.respond_wireOut : (s.respond q v).wireOut = s.wireOut := rfl
@[simp] theorem State.respond_fbOut : (s.respond q v).fbOut = s.fbOut := rfl
@[simp] theorem State.respond_cmd : (s.respond q v).cmd = s.cmd := rfl
@[simp] theorem State.respond_rsp : (s.respond q v).rsp = s.rsp.set q (s.rsp.get q ++ [v.setWidth 32]) := rfl
@[simp] theorem State.respond_agenda : (s.respond q v).agenda = s.agenda := rfl

end

/-! ### setQueue -/

section
variable (s : State) (q : Port) (ws : List Word)

@[simp] theorem State.setQueue_params : (s.setQueue q ws).params = s.params := rfl
@[simp] theorem State.setQueue_sync : (s.setQueue q ws).sync = s.sync := rfl
@[simp] theorem State.setQueue_fbEn : (s.setQueue q ws).fbEn = s.fbEn := rfl
@[simp] theorem State.setQueue_pbRun : (s.setQueue q ws).pbRun = s.pbRun := rfl
@[simp] theorem State.setQueue_capRun : (s.setQueue q ws).capRun = s.capRun := rfl
@[simp] theorem State.setQueue_cfgValid : (s.setQueue q ws).cfgValid = s.cfgValid := rfl
@[simp] theorem State.setQueue_illop : (s.setQueue q ws).illop = s.illop := rfl
@[simp] theorem State.setQueue_illreg : (s.setQueue q ws).illreg = s.illreg := rfl
@[simp] theorem State.setQueue_cfgerr : (s.setQueue q ws).cfgerr = s.cfgerr := rfl
@[simp] theorem State.setQueue_seqerr : (s.setQueue q ws).seqerr = s.seqerr := rfl
@[simp] theorem State.setQueue_pend : (s.setQueue q ws).pend = s.pend := rfl
@[simp] theorem State.setQueue_est : (s.setQueue q ws).est = s.est := rfl
@[simp] theorem State.setQueue_rate : (s.setQueue q ws).rate = s.rate := rfl
@[simp] theorem State.setQueue_nframe : (s.setQueue q ws).nframe = s.nframe := rfl
@[simp] theorem State.setQueue_nomFb : (s.setQueue q ws).nomFb = s.nomFb := rfl
@[simp] theorem State.setQueue_shRate : (s.setQueue q ws).shRate = s.shRate := rfl
@[simp] theorem State.setQueue_shNframe : (s.setQueue q ws).shNframe = s.shNframe := rfl
@[simp] theorem State.setQueue_shNomfb : (s.setQueue q ws).shNomfb = s.shNomfb := rfl
@[simp] theorem State.setQueue_wireIn : (s.setQueue q ws).wireIn = s.wireIn := rfl
@[simp] theorem State.setQueue_nativeIn : (s.setQueue q ws).nativeIn = s.nativeIn := rfl
@[simp] theorem State.setQueue_nativeOut : (s.setQueue q ws).nativeOut = s.nativeOut := rfl
@[simp] theorem State.setQueue_wireOut : (s.setQueue q ws).wireOut = s.wireOut := rfl
@[simp] theorem State.setQueue_fbOut : (s.setQueue q ws).fbOut = s.fbOut := rfl
@[simp] theorem State.setQueue_cmd : (s.setQueue q ws).cmd = s.cmd.set q ws := rfl
@[simp] theorem State.setQueue_rsp : (s.setQueue q ws).rsp = s.rsp := rfl
@[simp] theorem State.setQueue_agenda : (s.setQueue q ws).agenda = s.agenda := rfl

end

/-! ### setAgenda -/

section
variable (s : State) (es : List Event)

@[simp] theorem State.setAgenda_params : (s.setAgenda es).params = s.params := rfl
@[simp] theorem State.setAgenda_sync : (s.setAgenda es).sync = s.sync := rfl
@[simp] theorem State.setAgenda_fbEn : (s.setAgenda es).fbEn = s.fbEn := rfl
@[simp] theorem State.setAgenda_pbRun : (s.setAgenda es).pbRun = s.pbRun := rfl
@[simp] theorem State.setAgenda_capRun : (s.setAgenda es).capRun = s.capRun := rfl
@[simp] theorem State.setAgenda_cfgValid : (s.setAgenda es).cfgValid = s.cfgValid := rfl
@[simp] theorem State.setAgenda_illop : (s.setAgenda es).illop = s.illop := rfl
@[simp] theorem State.setAgenda_illreg : (s.setAgenda es).illreg = s.illreg := rfl
@[simp] theorem State.setAgenda_cfgerr : (s.setAgenda es).cfgerr = s.cfgerr := rfl
@[simp] theorem State.setAgenda_seqerr : (s.setAgenda es).seqerr = s.seqerr := rfl
@[simp] theorem State.setAgenda_pend : (s.setAgenda es).pend = s.pend := rfl
@[simp] theorem State.setAgenda_est : (s.setAgenda es).est = s.est := rfl
@[simp] theorem State.setAgenda_rate : (s.setAgenda es).rate = s.rate := rfl
@[simp] theorem State.setAgenda_nframe : (s.setAgenda es).nframe = s.nframe := rfl
@[simp] theorem State.setAgenda_nomFb : (s.setAgenda es).nomFb = s.nomFb := rfl
@[simp] theorem State.setAgenda_shRate : (s.setAgenda es).shRate = s.shRate := rfl
@[simp] theorem State.setAgenda_shNframe : (s.setAgenda es).shNframe = s.shNframe := rfl
@[simp] theorem State.setAgenda_shNomfb : (s.setAgenda es).shNomfb = s.shNomfb := rfl
@[simp] theorem State.setAgenda_wireIn : (s.setAgenda es).wireIn = s.wireIn := rfl
@[simp] theorem State.setAgenda_nativeIn : (s.setAgenda es).nativeIn = s.nativeIn := rfl
@[simp] theorem State.setAgenda_nativeOut : (s.setAgenda es).nativeOut = s.nativeOut := rfl
@[simp] theorem State.setAgenda_wireOut : (s.setAgenda es).wireOut = s.wireOut := rfl
@[simp] theorem State.setAgenda_fbOut : (s.setAgenda es).fbOut = s.fbOut := rfl
@[simp] theorem State.setAgenda_cmd : (s.setAgenda es).cmd = s.cmd := rfl
@[simp] theorem State.setAgenda_rsp : (s.setAgenda es).rsp = s.rsp := rfl
@[simp] theorem State.setAgenda_agenda : (s.setAgenda es).agenda = es := rfl

end

/-! ### setPend -/

section
variable (s : State) (bs : List Byte)

@[simp] theorem State.setPend_params : (s.setPend bs).params = s.params := rfl
@[simp] theorem State.setPend_sync : (s.setPend bs).sync = s.sync := rfl
@[simp] theorem State.setPend_fbEn : (s.setPend bs).fbEn = s.fbEn := rfl
@[simp] theorem State.setPend_pbRun : (s.setPend bs).pbRun = s.pbRun := rfl
@[simp] theorem State.setPend_capRun : (s.setPend bs).capRun = s.capRun := rfl
@[simp] theorem State.setPend_cfgValid : (s.setPend bs).cfgValid = s.cfgValid := rfl
@[simp] theorem State.setPend_illop : (s.setPend bs).illop = s.illop := rfl
@[simp] theorem State.setPend_illreg : (s.setPend bs).illreg = s.illreg := rfl
@[simp] theorem State.setPend_cfgerr : (s.setPend bs).cfgerr = s.cfgerr := rfl
@[simp] theorem State.setPend_seqerr : (s.setPend bs).seqerr = s.seqerr := rfl
@[simp] theorem State.setPend_pend : (s.setPend bs).pend = bs := rfl
@[simp] theorem State.setPend_est : (s.setPend bs).est = s.est := rfl
@[simp] theorem State.setPend_rate : (s.setPend bs).rate = s.rate := rfl
@[simp] theorem State.setPend_nframe : (s.setPend bs).nframe = s.nframe := rfl
@[simp] theorem State.setPend_nomFb : (s.setPend bs).nomFb = s.nomFb := rfl
@[simp] theorem State.setPend_shRate : (s.setPend bs).shRate = s.shRate := rfl
@[simp] theorem State.setPend_shNframe : (s.setPend bs).shNframe = s.shNframe := rfl
@[simp] theorem State.setPend_shNomfb : (s.setPend bs).shNomfb = s.shNomfb := rfl
@[simp] theorem State.setPend_wireIn : (s.setPend bs).wireIn = s.wireIn := rfl
@[simp] theorem State.setPend_nativeIn : (s.setPend bs).nativeIn = s.nativeIn := rfl
@[simp] theorem State.setPend_nativeOut : (s.setPend bs).nativeOut = s.nativeOut := rfl
@[simp] theorem State.setPend_wireOut : (s.setPend bs).wireOut = s.wireOut := rfl
@[simp] theorem State.setPend_fbOut : (s.setPend bs).fbOut = s.fbOut := rfl
@[simp] theorem State.setPend_cmd : (s.setPend bs).cmd = s.cmd := rfl
@[simp] theorem State.setPend_rsp : (s.setPend bs).rsp = s.rsp := rfl
@[simp] theorem State.setPend_agenda : (s.setPend bs).agenda = s.agenda := rfl

end

/-! ### clearCarry -/

section
variable (s : State) 

@[simp] theorem State.clearCarry_params : (s.clearCarry).params = s.params := rfl
@[simp] theorem State.clearCarry_sync : (s.clearCarry).sync = s.sync := rfl
@[simp] theorem State.clearCarry_fbEn : (s.clearCarry).fbEn = s.fbEn := rfl
@[simp] theorem State.clearCarry_pbRun : (s.clearCarry).pbRun = s.pbRun := rfl
@[simp] theorem State.clearCarry_capRun : (s.clearCarry).capRun = s.capRun := rfl
@[simp] theorem State.clearCarry_cfgValid : (s.clearCarry).cfgValid = s.cfgValid := rfl
@[simp] theorem State.clearCarry_illop : (s.clearCarry).illop = s.illop := rfl
@[simp] theorem State.clearCarry_illreg : (s.clearCarry).illreg = s.illreg := rfl
@[simp] theorem State.clearCarry_cfgerr : (s.clearCarry).cfgerr = s.cfgerr := rfl
@[simp] theorem State.clearCarry_seqerr : (s.clearCarry).seqerr = s.seqerr := rfl
@[simp] theorem State.clearCarry_pend : (s.clearCarry).pend = [] := rfl
@[simp] theorem State.clearCarry_est : (s.clearCarry).est = s.est := rfl
@[simp] theorem State.clearCarry_rate : (s.clearCarry).rate = s.rate := rfl
@[simp] theorem State.clearCarry_nframe : (s.clearCarry).nframe = s.nframe := rfl
@[simp] theorem State.clearCarry_nomFb : (s.clearCarry).nomFb = s.nomFb := rfl
@[simp] theorem State.clearCarry_shRate : (s.clearCarry).shRate = s.shRate := rfl
@[simp] theorem State.clearCarry_shNframe : (s.clearCarry).shNframe = s.shNframe := rfl
@[simp] theorem State.clearCarry_shNomfb : (s.clearCarry).shNomfb = s.shNomfb := rfl
@[simp] theorem State.clearCarry_wireIn : (s.clearCarry).wireIn = s.wireIn := rfl
@[simp] theorem State.clearCarry_nativeIn : (s.clearCarry).nativeIn = s.nativeIn := rfl
@[simp] theorem State.clearCarry_nativeOut : (s.clearCarry).nativeOut = s.nativeOut := rfl
@[simp] theorem State.clearCarry_wireOut : (s.clearCarry).wireOut = s.wireOut := rfl
@[simp] theorem State.clearCarry_fbOut : (s.clearCarry).fbOut = s.fbOut := rfl
@[simp] theorem State.clearCarry_cmd : (s.clearCarry).cmd = s.cmd := rfl
@[simp] theorem State.clearCarry_rsp : (s.clearCarry).rsp = s.rsp := rfl
@[simp] theorem State.clearCarry_agenda : (s.clearCarry).agenda = s.agenda := rfl

end

/-! ### pushNativeOut -/

section
variable (s : State) (ws : List Word)

@[simp] theorem State.pushNativeOut_params : (s.pushNativeOut ws).params = s.params := rfl
@[simp] theorem State.pushNativeOut_sync : (s.pushNativeOut ws).sync = s.sync := rfl
@[simp] theorem State.pushNativeOut_fbEn : (s.pushNativeOut ws).fbEn = s.fbEn := rfl
@[simp] theorem State.pushNativeOut_pbRun : (s.pushNativeOut ws).pbRun = s.pbRun := rfl
@[simp] theorem State.pushNativeOut_capRun : (s.pushNativeOut ws).capRun = s.capRun := rfl
@[simp] theorem State.pushNativeOut_cfgValid : (s.pushNativeOut ws).cfgValid = s.cfgValid := rfl
@[simp] theorem State.pushNativeOut_illop : (s.pushNativeOut ws).illop = s.illop := rfl
@[simp] theorem State.pushNativeOut_illreg : (s.pushNativeOut ws).illreg = s.illreg := rfl
@[simp] theorem State.pushNativeOut_cfgerr : (s.pushNativeOut ws).cfgerr = s.cfgerr := rfl
@[simp] theorem State.pushNativeOut_seqerr : (s.pushNativeOut ws).seqerr = s.seqerr := rfl
@[simp] theorem State.pushNativeOut_pend : (s.pushNativeOut ws).pend = s.pend := rfl
@[simp] theorem State.pushNativeOut_est : (s.pushNativeOut ws).est = s.est := rfl
@[simp] theorem State.pushNativeOut_rate : (s.pushNativeOut ws).rate = s.rate := rfl
@[simp] theorem State.pushNativeOut_nframe : (s.pushNativeOut ws).nframe = s.nframe := rfl
@[simp] theorem State.pushNativeOut_nomFb : (s.pushNativeOut ws).nomFb = s.nomFb := rfl
@[simp] theorem State.pushNativeOut_shRate : (s.pushNativeOut ws).shRate = s.shRate := rfl
@[simp] theorem State.pushNativeOut_shNframe : (s.pushNativeOut ws).shNframe = s.shNframe := rfl
@[simp] theorem State.pushNativeOut_shNomfb : (s.pushNativeOut ws).shNomfb = s.shNomfb := rfl
@[simp] theorem State.pushNativeOut_wireIn : (s.pushNativeOut ws).wireIn = s.wireIn := rfl
@[simp] theorem State.pushNativeOut_nativeIn : (s.pushNativeOut ws).nativeIn = s.nativeIn := rfl
@[simp] theorem State.pushNativeOut_nativeOut : (s.pushNativeOut ws).nativeOut = s.nativeOut ++ ws := rfl
@[simp] theorem State.pushNativeOut_wireOut : (s.pushNativeOut ws).wireOut = s.wireOut := rfl
@[simp] theorem State.pushNativeOut_fbOut : (s.pushNativeOut ws).fbOut = s.fbOut := rfl
@[simp] theorem State.pushNativeOut_cmd : (s.pushNativeOut ws).cmd = s.cmd := rfl
@[simp] theorem State.pushNativeOut_rsp : (s.pushNativeOut ws).rsp = s.rsp := rfl
@[simp] theorem State.pushNativeOut_agenda : (s.pushNativeOut ws).agenda = s.agenda := rfl

end

/-! ### pushWireOut -/

section
variable (s : State) (bs : List Byte)

@[simp] theorem State.pushWireOut_params : (s.pushWireOut bs).params = s.params := rfl
@[simp] theorem State.pushWireOut_sync : (s.pushWireOut bs).sync = s.sync := rfl
@[simp] theorem State.pushWireOut_fbEn : (s.pushWireOut bs).fbEn = s.fbEn := rfl
@[simp] theorem State.pushWireOut_pbRun : (s.pushWireOut bs).pbRun = s.pbRun := rfl
@[simp] theorem State.pushWireOut_capRun : (s.pushWireOut bs).capRun = s.capRun := rfl
@[simp] theorem State.pushWireOut_cfgValid : (s.pushWireOut bs).cfgValid = s.cfgValid := rfl
@[simp] theorem State.pushWireOut_illop : (s.pushWireOut bs).illop = s.illop := rfl
@[simp] theorem State.pushWireOut_illreg : (s.pushWireOut bs).illreg = s.illreg := rfl
@[simp] theorem State.pushWireOut_cfgerr : (s.pushWireOut bs).cfgerr = s.cfgerr := rfl
@[simp] theorem State.pushWireOut_seqerr : (s.pushWireOut bs).seqerr = s.seqerr := rfl
@[simp] theorem State.pushWireOut_pend : (s.pushWireOut bs).pend = s.pend := rfl
@[simp] theorem State.pushWireOut_est : (s.pushWireOut bs).est = s.est := rfl
@[simp] theorem State.pushWireOut_rate : (s.pushWireOut bs).rate = s.rate := rfl
@[simp] theorem State.pushWireOut_nframe : (s.pushWireOut bs).nframe = s.nframe := rfl
@[simp] theorem State.pushWireOut_nomFb : (s.pushWireOut bs).nomFb = s.nomFb := rfl
@[simp] theorem State.pushWireOut_shRate : (s.pushWireOut bs).shRate = s.shRate := rfl
@[simp] theorem State.pushWireOut_shNframe : (s.pushWireOut bs).shNframe = s.shNframe := rfl
@[simp] theorem State.pushWireOut_shNomfb : (s.pushWireOut bs).shNomfb = s.shNomfb := rfl
@[simp] theorem State.pushWireOut_wireIn : (s.pushWireOut bs).wireIn = s.wireIn := rfl
@[simp] theorem State.pushWireOut_nativeIn : (s.pushWireOut bs).nativeIn = s.nativeIn := rfl
@[simp] theorem State.pushWireOut_nativeOut : (s.pushWireOut bs).nativeOut = s.nativeOut := rfl
@[simp] theorem State.pushWireOut_wireOut : (s.pushWireOut bs).wireOut = s.wireOut ++ bs := rfl
@[simp] theorem State.pushWireOut_fbOut : (s.pushWireOut bs).fbOut = s.fbOut := rfl
@[simp] theorem State.pushWireOut_cmd : (s.pushWireOut bs).cmd = s.cmd := rfl
@[simp] theorem State.pushWireOut_rsp : (s.pushWireOut bs).rsp = s.rsp := rfl
@[simp] theorem State.pushWireOut_agenda : (s.pushWireOut bs).agenda = s.agenda := rfl

end

/-! ### pushFbOut -/

section
variable (s : State) (bs : List Byte)

@[simp] theorem State.pushFbOut_params : (s.pushFbOut bs).params = s.params := rfl
@[simp] theorem State.pushFbOut_sync : (s.pushFbOut bs).sync = s.sync := rfl
@[simp] theorem State.pushFbOut_fbEn : (s.pushFbOut bs).fbEn = s.fbEn := rfl
@[simp] theorem State.pushFbOut_pbRun : (s.pushFbOut bs).pbRun = s.pbRun := rfl
@[simp] theorem State.pushFbOut_capRun : (s.pushFbOut bs).capRun = s.capRun := rfl
@[simp] theorem State.pushFbOut_cfgValid : (s.pushFbOut bs).cfgValid = s.cfgValid := rfl
@[simp] theorem State.pushFbOut_illop : (s.pushFbOut bs).illop = s.illop := rfl
@[simp] theorem State.pushFbOut_illreg : (s.pushFbOut bs).illreg = s.illreg := rfl
@[simp] theorem State.pushFbOut_cfgerr : (s.pushFbOut bs).cfgerr = s.cfgerr := rfl
@[simp] theorem State.pushFbOut_seqerr : (s.pushFbOut bs).seqerr = s.seqerr := rfl
@[simp] theorem State.pushFbOut_pend : (s.pushFbOut bs).pend = s.pend := rfl
@[simp] theorem State.pushFbOut_est : (s.pushFbOut bs).est = s.est := rfl
@[simp] theorem State.pushFbOut_rate : (s.pushFbOut bs).rate = s.rate := rfl
@[simp] theorem State.pushFbOut_nframe : (s.pushFbOut bs).nframe = s.nframe := rfl
@[simp] theorem State.pushFbOut_nomFb : (s.pushFbOut bs).nomFb = s.nomFb := rfl
@[simp] theorem State.pushFbOut_shRate : (s.pushFbOut bs).shRate = s.shRate := rfl
@[simp] theorem State.pushFbOut_shNframe : (s.pushFbOut bs).shNframe = s.shNframe := rfl
@[simp] theorem State.pushFbOut_shNomfb : (s.pushFbOut bs).shNomfb = s.shNomfb := rfl
@[simp] theorem State.pushFbOut_wireIn : (s.pushFbOut bs).wireIn = s.wireIn := rfl
@[simp] theorem State.pushFbOut_nativeIn : (s.pushFbOut bs).nativeIn = s.nativeIn := rfl
@[simp] theorem State.pushFbOut_nativeOut : (s.pushFbOut bs).nativeOut = s.nativeOut := rfl
@[simp] theorem State.pushFbOut_wireOut : (s.pushFbOut bs).wireOut = s.wireOut := rfl
@[simp] theorem State.pushFbOut_fbOut : (s.pushFbOut bs).fbOut = s.fbOut ++ bs := rfl
@[simp] theorem State.pushFbOut_cmd : (s.pushFbOut bs).cmd = s.cmd := rfl
@[simp] theorem State.pushFbOut_rsp : (s.pushFbOut bs).rsp = s.rsp := rfl
@[simp] theorem State.pushFbOut_agenda : (s.pushFbOut bs).agenda = s.agenda := rfl

end

/-! ### popWireIn -/

section
variable (s : State) (n : Nat)

@[simp] theorem State.popWireIn_params : (s.popWireIn n).2.params = s.params := rfl
@[simp] theorem State.popWireIn_sync : (s.popWireIn n).2.sync = s.sync := rfl
@[simp] theorem State.popWireIn_fbEn : (s.popWireIn n).2.fbEn = s.fbEn := rfl
@[simp] theorem State.popWireIn_pbRun : (s.popWireIn n).2.pbRun = s.pbRun := rfl
@[simp] theorem State.popWireIn_capRun : (s.popWireIn n).2.capRun = s.capRun := rfl
@[simp] theorem State.popWireIn_cfgValid : (s.popWireIn n).2.cfgValid = s.cfgValid := rfl
@[simp] theorem State.popWireIn_illop : (s.popWireIn n).2.illop = s.illop := rfl
@[simp] theorem State.popWireIn_illreg : (s.popWireIn n).2.illreg = s.illreg := rfl
@[simp] theorem State.popWireIn_cfgerr : (s.popWireIn n).2.cfgerr = s.cfgerr := rfl
@[simp] theorem State.popWireIn_seqerr : (s.popWireIn n).2.seqerr = s.seqerr := rfl
@[simp] theorem State.popWireIn_pend : (s.popWireIn n).2.pend = s.pend := rfl
@[simp] theorem State.popWireIn_est : (s.popWireIn n).2.est = s.est := rfl
@[simp] theorem State.popWireIn_rate : (s.popWireIn n).2.rate = s.rate := rfl
@[simp] theorem State.popWireIn_nframe : (s.popWireIn n).2.nframe = s.nframe := rfl
@[simp] theorem State.popWireIn_nomFb : (s.popWireIn n).2.nomFb = s.nomFb := rfl
@[simp] theorem State.popWireIn_shRate : (s.popWireIn n).2.shRate = s.shRate := rfl
@[simp] theorem State.popWireIn_shNframe : (s.popWireIn n).2.shNframe = s.shNframe := rfl
@[simp] theorem State.popWireIn_shNomfb : (s.popWireIn n).2.shNomfb = s.shNomfb := rfl
@[simp] theorem State.popWireIn_wireIn : (s.popWireIn n).2.wireIn = s.wireIn.drop n := rfl
@[simp] theorem State.popWireIn_nativeIn : (s.popWireIn n).2.nativeIn = s.nativeIn := rfl
@[simp] theorem State.popWireIn_nativeOut : (s.popWireIn n).2.nativeOut = s.nativeOut := rfl
@[simp] theorem State.popWireIn_wireOut : (s.popWireIn n).2.wireOut = s.wireOut := rfl
@[simp] theorem State.popWireIn_fbOut : (s.popWireIn n).2.fbOut = s.fbOut := rfl
@[simp] theorem State.popWireIn_cmd : (s.popWireIn n).2.cmd = s.cmd := rfl
@[simp] theorem State.popWireIn_rsp : (s.popWireIn n).2.rsp = s.rsp := rfl
@[simp] theorem State.popWireIn_agenda : (s.popWireIn n).2.agenda = s.agenda := rfl
@[simp] theorem State.popWireIn_items : (s.popWireIn n).1 = s.wireIn.take n := rfl

end

/-! ### popNativeIn -/

section
variable (s : State) (n : Nat)

@[simp] theorem State.popNativeIn_params : (s.popNativeIn n).2.params = s.params := rfl
@[simp] theorem State.popNativeIn_sync : (s.popNativeIn n).2.sync = s.sync := rfl
@[simp] theorem State.popNativeIn_fbEn : (s.popNativeIn n).2.fbEn = s.fbEn := rfl
@[simp] theorem State.popNativeIn_pbRun : (s.popNativeIn n).2.pbRun = s.pbRun := rfl
@[simp] theorem State.popNativeIn_capRun : (s.popNativeIn n).2.capRun = s.capRun := rfl
@[simp] theorem State.popNativeIn_cfgValid : (s.popNativeIn n).2.cfgValid = s.cfgValid := rfl
@[simp] theorem State.popNativeIn_illop : (s.popNativeIn n).2.illop = s.illop := rfl
@[simp] theorem State.popNativeIn_illreg : (s.popNativeIn n).2.illreg = s.illreg := rfl
@[simp] theorem State.popNativeIn_cfgerr : (s.popNativeIn n).2.cfgerr = s.cfgerr := rfl
@[simp] theorem State.popNativeIn_seqerr : (s.popNativeIn n).2.seqerr = s.seqerr := rfl
@[simp] theorem State.popNativeIn_pend : (s.popNativeIn n).2.pend = s.pend := rfl
@[simp] theorem State.popNativeIn_est : (s.popNativeIn n).2.est = s.est := rfl
@[simp] theorem State.popNativeIn_rate : (s.popNativeIn n).2.rate = s.rate := rfl
@[simp] theorem State.popNativeIn_nframe : (s.popNativeIn n).2.nframe = s.nframe := rfl
@[simp] theorem State.popNativeIn_nomFb : (s.popNativeIn n).2.nomFb = s.nomFb := rfl
@[simp] theorem State.popNativeIn_shRate : (s.popNativeIn n).2.shRate = s.shRate := rfl
@[simp] theorem State.popNativeIn_shNframe : (s.popNativeIn n).2.shNframe = s.shNframe := rfl
@[simp] theorem State.popNativeIn_shNomfb : (s.popNativeIn n).2.shNomfb = s.shNomfb := rfl
@[simp] theorem State.popNativeIn_wireIn : (s.popNativeIn n).2.wireIn = s.wireIn := rfl
@[simp] theorem State.popNativeIn_nativeIn : (s.popNativeIn n).2.nativeIn = s.nativeIn.drop n := rfl
@[simp] theorem State.popNativeIn_nativeOut : (s.popNativeIn n).2.nativeOut = s.nativeOut := rfl
@[simp] theorem State.popNativeIn_wireOut : (s.popNativeIn n).2.wireOut = s.wireOut := rfl
@[simp] theorem State.popNativeIn_fbOut : (s.popNativeIn n).2.fbOut = s.fbOut := rfl
@[simp] theorem State.popNativeIn_cmd : (s.popNativeIn n).2.cmd = s.cmd := rfl
@[simp] theorem State.popNativeIn_rsp : (s.popNativeIn n).2.rsp = s.rsp := rfl
@[simp] theorem State.popNativeIn_agenda : (s.popNativeIn n).2.agenda = s.agenda := rfl
@[simp] theorem State.popNativeIn_items : (s.popNativeIn n).1 = s.nativeIn.take n := rfl

end

/-! ### feedWireIn -/

section
variable (s : State) (bs : List Byte)

@[simp] theorem State.feedWireIn_params : (s.feedWireIn bs).params = s.params := rfl
@[simp] theorem State.feedWireIn_sync : (s.feedWireIn bs).sync = s.sync := rfl
@[simp] theorem State.feedWireIn_fbEn : (s.feedWireIn bs).fbEn = s.fbEn := rfl
@[simp] theorem State.feedWireIn_pbRun : (s.feedWireIn bs).pbRun = s.pbRun := rfl
@[simp] theorem State.feedWireIn_capRun : (s.feedWireIn bs).capRun = s.capRun := rfl
@[simp] theorem State.feedWireIn_cfgValid : (s.feedWireIn bs).cfgValid = s.cfgValid := rfl
@[simp] theorem State.feedWireIn_illop : (s.feedWireIn bs).illop = s.illop := rfl
@[simp] theorem State.feedWireIn_illreg : (s.feedWireIn bs).illreg = s.illreg := rfl
@[simp] theorem State.feedWireIn_cfgerr : (s.feedWireIn bs).cfgerr = s.cfgerr := rfl
@[simp] theorem State.feedWireIn_seqerr : (s.feedWireIn bs).seqerr = s.seqerr := rfl
@[simp] theorem State.feedWireIn_pend : (s.feedWireIn bs).pend = s.pend := rfl
@[simp] theorem State.feedWireIn_est : (s.feedWireIn bs).est = s.est := rfl
@[simp] theorem State.feedWireIn_rate : (s.feedWireIn bs).rate = s.rate := rfl
@[simp] theorem State.feedWireIn_nframe : (s.feedWireIn bs).nframe = s.nframe := rfl
@[simp] theorem State.feedWireIn_nomFb : (s.feedWireIn bs).nomFb = s.nomFb := rfl
@[simp] theorem State.feedWireIn_shRate : (s.feedWireIn bs).shRate = s.shRate := rfl
@[simp] theorem State.feedWireIn_shNframe : (s.feedWireIn bs).shNframe = s.shNframe := rfl
@[simp] theorem State.feedWireIn_shNomfb : (s.feedWireIn bs).shNomfb = s.shNomfb := rfl
@[simp] theorem State.feedWireIn_wireIn : (s.feedWireIn bs).wireIn = s.wireIn ++ bs := rfl
@[simp] theorem State.feedWireIn_nativeIn : (s.feedWireIn bs).nativeIn = s.nativeIn := rfl
@[simp] theorem State.feedWireIn_nativeOut : (s.feedWireIn bs).nativeOut = s.nativeOut := rfl
@[simp] theorem State.feedWireIn_wireOut : (s.feedWireIn bs).wireOut = s.wireOut := rfl
@[simp] theorem State.feedWireIn_fbOut : (s.feedWireIn bs).fbOut = s.fbOut := rfl
@[simp] theorem State.feedWireIn_cmd : (s.feedWireIn bs).cmd = s.cmd := rfl
@[simp] theorem State.feedWireIn_rsp : (s.feedWireIn bs).rsp = s.rsp := rfl
@[simp] theorem State.feedWireIn_agenda : (s.feedWireIn bs).agenda = s.agenda := rfl

end

/-! ### feedNativeIn -/

section
variable (s : State) (ws : List Word)

@[simp] theorem State.feedNativeIn_params : (s.feedNativeIn ws).params = s.params := rfl
@[simp] theorem State.feedNativeIn_sync : (s.feedNativeIn ws).sync = s.sync := rfl
@[simp] theorem State.feedNativeIn_fbEn : (s.feedNativeIn ws).fbEn = s.fbEn := rfl
@[simp] theorem State.feedNativeIn_pbRun : (s.feedNativeIn ws).pbRun = s.pbRun := rfl
@[simp] theorem State.feedNativeIn_capRun : (s.feedNativeIn ws).capRun = s.capRun := rfl
@[simp] theorem State.feedNativeIn_cfgValid : (s.feedNativeIn ws).cfgValid = s.cfgValid := rfl
@[simp] theorem State.feedNativeIn_illop : (s.feedNativeIn ws).illop = s.illop := rfl
@[simp] theorem State.feedNativeIn_illreg : (s.feedNativeIn ws).illreg = s.illreg := rfl
@[simp] theorem State.feedNativeIn_cfgerr : (s.feedNativeIn ws).cfgerr = s.cfgerr := rfl
@[simp] theorem State.feedNativeIn_seqerr : (s.feedNativeIn ws).seqerr = s.seqerr := rfl
@[simp] theorem State.feedNativeIn_pend : (s.feedNativeIn ws).pend = s.pend := rfl
@[simp] theorem State.feedNativeIn_est : (s.feedNativeIn ws).est = s.est := rfl
@[simp] theorem State.feedNativeIn_rate : (s.feedNativeIn ws).rate = s.rate := rfl
@[simp] theorem State.feedNativeIn_nframe : (s.feedNativeIn ws).nframe = s.nframe := rfl
@[simp] theorem State.feedNativeIn_nomFb : (s.feedNativeIn ws).nomFb = s.nomFb := rfl
@[simp] theorem State.feedNativeIn_shRate : (s.feedNativeIn ws).shRate = s.shRate := rfl
@[simp] theorem State.feedNativeIn_shNframe : (s.feedNativeIn ws).shNframe = s.shNframe := rfl
@[simp] theorem State.feedNativeIn_shNomfb : (s.feedNativeIn ws).shNomfb = s.shNomfb := rfl
@[simp] theorem State.feedNativeIn_wireIn : (s.feedNativeIn ws).wireIn = s.wireIn := rfl
@[simp] theorem State.feedNativeIn_nativeIn : (s.feedNativeIn ws).nativeIn = s.nativeIn ++ ws := rfl
@[simp] theorem State.feedNativeIn_nativeOut : (s.feedNativeIn ws).nativeOut = s.nativeOut := rfl
@[simp] theorem State.feedNativeIn_wireOut : (s.feedNativeIn ws).wireOut = s.wireOut := rfl
@[simp] theorem State.feedNativeIn_fbOut : (s.feedNativeIn ws).fbOut = s.fbOut := rfl
@[simp] theorem State.feedNativeIn_cmd : (s.feedNativeIn ws).cmd = s.cmd := rfl
@[simp] theorem State.feedNativeIn_rsp : (s.feedNativeIn ws).rsp = s.rsp := rfl
@[simp] theorem State.feedNativeIn_agenda : (s.feedNativeIn ws).agenda = s.agenda := rfl

end

/-! ### issue -/

section
variable (s : State) (q : Port) (w : Word)

@[simp] theorem State.issue_params : (s.issue q w).params = s.params := rfl
@[simp] theorem State.issue_sync : (s.issue q w).sync = s.sync := rfl
@[simp] theorem State.issue_fbEn : (s.issue q w).fbEn = s.fbEn := rfl
@[simp] theorem State.issue_pbRun : (s.issue q w).pbRun = s.pbRun := rfl
@[simp] theorem State.issue_capRun : (s.issue q w).capRun = s.capRun := rfl
@[simp] theorem State.issue_cfgValid : (s.issue q w).cfgValid = s.cfgValid := rfl
@[simp] theorem State.issue_illop : (s.issue q w).illop = s.illop := rfl
@[simp] theorem State.issue_illreg : (s.issue q w).illreg = s.illreg := rfl
@[simp] theorem State.issue_cfgerr : (s.issue q w).cfgerr = s.cfgerr := rfl
@[simp] theorem State.issue_seqerr : (s.issue q w).seqerr = s.seqerr := rfl
@[simp] theorem State.issue_pend : (s.issue q w).pend = s.pend := rfl
@[simp] theorem State.issue_est : (s.issue q w).est = s.est := rfl
@[simp] theorem State.issue_rate : (s.issue q w).rate = s.rate := rfl
@[simp] theorem State.issue_nframe : (s.issue q w).nframe = s.nframe := rfl
@[simp] theorem State.issue_nomFb : (s.issue q w).nomFb = s.nomFb := rfl
@[simp] theorem State.issue_shRate : (s.issue q w).shRate = s.shRate := rfl
@[simp] theorem State.issue_shNframe : (s.issue q w).shNframe = s.shNframe := rfl
@[simp] theorem State.issue_shNomfb : (s.issue q w).shNomfb = s.shNomfb := rfl
@[simp] theorem State.issue_wireIn : (s.issue q w).wireIn = s.wireIn := rfl
@[simp] theorem State.issue_nativeIn : (s.issue q w).nativeIn = s.nativeIn := rfl
@[simp] theorem State.issue_nativeOut : (s.issue q w).nativeOut = s.nativeOut := rfl
@[simp] theorem State.issue_wireOut : (s.issue q w).wireOut = s.wireOut := rfl
@[simp] theorem State.issue_fbOut : (s.issue q w).fbOut = s.fbOut := rfl
@[simp] theorem State.issue_cmd : (s.issue q w).cmd = s.cmd.set q (s.cmd.get q ++ [w]) := rfl
@[simp] theorem State.issue_rsp : (s.issue q w).rsp = s.rsp := rfl
@[simp] theorem State.issue_agenda : (s.issue q w).agenda = s.agenda := rfl

end

/-! ### raise -/

section
variable (s : State) (e : ErrorBit)

@[simp] theorem State.raise_params : (s.raise e).params = s.params := by cases e <;> rfl
@[simp] theorem State.raise_sync : (s.raise e).sync = s.sync := by cases e <;> rfl
@[simp] theorem State.raise_fbEn : (s.raise e).fbEn = s.fbEn := by cases e <;> rfl
@[simp] theorem State.raise_pbRun : (s.raise e).pbRun = s.pbRun := by cases e <;> rfl
@[simp] theorem State.raise_capRun : (s.raise e).capRun = s.capRun := by cases e <;> rfl
@[simp] theorem State.raise_cfgValid : (s.raise e).cfgValid = s.cfgValid := by cases e <;> rfl
@[simp] theorem State.raise_illop : (s.raise e).illop = (s.illop || decide (e = .illop)) := by
  cases e <;> simp [State.raise]
@[simp] theorem State.raise_illreg : (s.raise e).illreg = (s.illreg || decide (e = .illreg)) := by
  cases e <;> simp [State.raise]
@[simp] theorem State.raise_cfgerr : (s.raise e).cfgerr = (s.cfgerr || decide (e = .cfgerr)) := by
  cases e <;> simp [State.raise]
@[simp] theorem State.raise_seqerr : (s.raise e).seqerr = (s.seqerr || decide (e = .seqerr)) := by
  cases e <;> simp [State.raise]
@[simp] theorem State.raise_pend : (s.raise e).pend = s.pend := by cases e <;> rfl
@[simp] theorem State.raise_est : (s.raise e).est = s.est := by cases e <;> rfl
@[simp] theorem State.raise_rate : (s.raise e).rate = s.rate := by cases e <;> rfl
@[simp] theorem State.raise_nframe : (s.raise e).nframe = s.nframe := by cases e <;> rfl
@[simp] theorem State.raise_nomFb : (s.raise e).nomFb = s.nomFb := by cases e <;> rfl
@[simp] theorem State.raise_shRate : (s.raise e).shRate = s.shRate := by cases e <;> rfl
@[simp] theorem State.raise_shNframe : (s.raise e).shNframe = s.shNframe := by cases e <;> rfl
@[simp] theorem State.raise_shNomfb : (s.raise e).shNomfb = s.shNomfb := by cases e <;> rfl
@[simp] theorem State.raise_wireIn : (s.raise e).wireIn = s.wireIn := by cases e <;> rfl
@[simp] theorem State.raise_nativeIn : (s.raise e).nativeIn = s.nativeIn := by cases e <;> rfl
@[simp] theorem State.raise_nativeOut : (s.raise e).nativeOut = s.nativeOut := by cases e <;> rfl
@[simp] theorem State.raise_wireOut : (s.raise e).wireOut = s.wireOut := by cases e <;> rfl
@[simp] theorem State.raise_fbOut : (s.raise e).fbOut = s.fbOut := by cases e <;> rfl
@[simp] theorem State.raise_cmd : (s.raise e).cmd = s.cmd := by cases e <;> rfl
@[simp] theorem State.raise_rsp : (s.raise e).rsp = s.rsp := by cases e <;> rfl
@[simp] theorem State.raise_agenda : (s.raise e).agenda = s.agenda := by cases e <;> rfl

end

/-! ### resetInput -/

section
variable (s : State)

@[simp] theorem State.resetInput_params : s.resetInput.params = s.params := rfl
@[simp] theorem State.resetInput_sync : s.resetInput.sync = false := rfl
@[simp] theorem State.resetInput_fbEn : s.resetInput.fbEn = false := rfl
@[simp] theorem State.resetInput_pbRun : s.resetInput.pbRun = false := rfl
@[simp] theorem State.resetInput_capRun : s.resetInput.capRun = false := rfl
@[simp] theorem State.resetInput_cfgValid : s.resetInput.cfgValid = false := rfl
@[simp] theorem State.resetInput_illop : s.resetInput.illop = false := rfl
@[simp] theorem State.resetInput_illreg : s.resetInput.illreg = false := rfl
@[simp] theorem State.resetInput_cfgerr : s.resetInput.cfgerr = false := rfl
@[simp] theorem State.resetInput_seqerr : s.resetInput.seqerr = false := rfl
@[simp] theorem State.resetInput_pend : s.resetInput.pend = [] := rfl
@[simp] theorem State.resetInput_est : s.resetInput.est = 0 := rfl
@[simp] theorem State.resetInput_rate : s.resetInput.rate = 0 := rfl
@[simp] theorem State.resetInput_nframe : s.resetInput.nframe = 0 := rfl
@[simp] theorem State.resetInput_nomFb : s.resetInput.nomFb = 0 := rfl
@[simp] theorem State.resetInput_shRate : s.resetInput.shRate = 0 := rfl
@[simp] theorem State.resetInput_shNframe : s.resetInput.shNframe = 0 := rfl
@[simp] theorem State.resetInput_shNomfb : s.resetInput.shNomfb = 0 := rfl
@[simp] theorem State.resetInput_wireIn : s.resetInput.wireIn = [] := rfl
@[simp] theorem State.resetInput_nativeIn : s.resetInput.nativeIn = [] := rfl
@[simp] theorem State.resetInput_nativeOut : s.resetInput.nativeOut = [] := rfl
@[simp] theorem State.resetInput_wireOut : s.resetInput.wireOut = [] := rfl
@[simp] theorem State.resetInput_fbOut : s.resetInput.fbOut = [] := rfl
@[simp] theorem State.resetInput_cmd : s.resetInput.cmd = ⟨[], [], [], []⟩ := rfl
@[simp] theorem State.resetInput_rsp : s.resetInput.rsp = ⟨[], [], [], []⟩ := rfl
@[simp] theorem State.resetInput_agenda : s.resetInput.agenda = s.agenda := rfl

end

end Sys2Proof.Machine
end

