-- ==== Sys2Proof/Laws/Exec.lean ====
section
/-! SUPPORT. What a turn, an event and a step can do: one inversion lemma each, cited instead of unfolding them. -/

namespace Sys2Proof.Machine

open Host (Outcome)

/-! ### Taking the head of a queue -/

theorem takeHead_idle {q : Port} {s : State} : takeHead q s = .idle ↔ s.cmd.get q = [] := by
  unfold takeHead
  split
  · simp_all
  · rename_i w rest h
    simp only [h, List.cons_ne_nil, iff_false]
    split
    · simp
    · split <;> simp

theorem takeHead_held {q : Port} {s : State} : takeHead q s = .held ↔
    ∃ w rest i, s.cmd.get q = w :: rest ∧ decodeOn q w = .ok i ∧ enabled i s = false := by
  unfold takeHead
  split
  · simp_all
  · rename_i w rest h
    simp only [h]
    split
    · rename_i e he
      simp only [reduceCtorEq, List.cons.injEq, false_iff, not_exists, not_and]
      rintro w' rest' i ⟨rfl, rfl⟩ hi
      simp_all
    · rename_i i hi
      split
      · rename_i hen
        simp only [reduceCtorEq, List.cons.injEq, false_iff, not_exists, not_and]
        rintro w' rest' i' ⟨rfl, rfl⟩ hi'
        simp_all
      · rename_i hen
        simp only [true_iff]
        exact ⟨w, rest, i, rfl, hi, by simpa using hen⟩

theorem takeHead_rejected {q : Port} {s s' : State} : takeHead q s = .rejected s' ↔
    ∃ w rest e, s.cmd.get q = w :: rest ∧ decodeOn q w = .error e ∧
      s' = (s.setQueue q rest).raise .illop := by
  unfold takeHead
  split
  · simp_all
  · rename_i w rest h
    simp only [h]
    split
    · rename_i e he
      constructor
      · rintro h
        injection h with h
        exact ⟨w, rest, e, rfl, he, h.symm⟩
      · rintro ⟨w', rest', e', hc, -, rfl⟩
        cases hc
        rfl
    · rename_i i hi
      constructor
      · intro hx
        split at hx <;> simp at hx
      · rintro ⟨w', rest', e', hc, he', -⟩
        cases hc
        simp [hi] at he'

theorem takeHead_run {q : Port} {s s' : State} {i : Instr} : takeHead q s = .run i s' ↔
    ∃ w rest, s.cmd.get q = w :: rest ∧ decodeOn q w = .ok i ∧ enabled i s = true ∧
      s' = s.setQueue q rest := by
  unfold takeHead
  split
  · simp_all
  · rename_i w rest h
    simp only [h]
    split
    · rename_i e he
      constructor
      · simp
      · rintro ⟨w', rest', hc, hi, -⟩
        cases hc
        simp [hi] at he
    · rename_i j hj
      constructor
      · intro hx
        split at hx
        · rename_i hen
          injection hx with h1 h2
          subst h1
          exact ⟨w, rest, rfl, hj, hen, h2.symm⟩
        · simp at hx
      · rintro ⟨w', rest', hc, hi, hen, rfl⟩
        cases hc
        rw [hj] at hi
        injection hi with hi
        subst hi
        simp [hen]

/-- Whether a command is enabled does not depend on queues, responses, outputs or events to come. -/
@[simp] theorem enabled_setQueue (i : Instr) (q : Port) (ws : List Word) (s : State) :
    enabled i (s.setQueue q ws) = enabled i s := by
  cases i <;> rfl

@[simp] theorem enabled_setAgenda (i : Instr) (es : List Event) (s : State) :
    enabled i (s.setAgenda es) = enabled i s := by
  cases i <;> rfl

/-! ### One command -/

/-- W2N: its whole effect when enabled, nothing when held. -/
theorem execW2n_eq (n : Nat) (s : State) : execW2n n s = .next
    (if w2nEnabled n s then
      { s with
        wireIn := s.wireIn.drop (s.params.W * n)
        nativeOut := s.nativeOut ++ wireToNative (s.wireIn.take (s.params.W * n)) }
    else s) := by
  unfold execW2n
  split <;> rfl

/-- N2W: its whole effect when enabled, nothing when held. -/
theorem execN2w_eq (n : Nat) (s : State) : execN2w n s = .next
    (if n2wEnabled n s then
      { s with
        nativeIn := s.nativeIn.drop (s.params.CH * n)
        wireOut := s.wireOut ++ nativeToWire (s.nativeIn.take (s.params.CH * n)) }
    else s) := by
  unfold execN2w
  split <;> rfl

/-- The number of sample-groups a packet of `len` bytes completes: `G` of R121. -/
def groupsOf (len : Nat) (s : State) : Nat := (s.carry + len) / s.params.W

/-- PKT: its whole effect when enabled, nothing when held. -/
theorem execPkt_eq (len : Nat) (s : State) : execPkt len s = .next
    (if pktEnabled len s then
      { s with
        wireIn := s.wireIn.drop len
        nativeOut := s.nativeOut ++
          wireToNative ((s.pend ++ s.wireIn.take len).take (s.params.W * groupsOf len s))
        pend := ((s.pend ++ s.wireIn.take len).drop (s.params.W * groupsOf len s)).take
          ((s.carry + len) % s.params.W)
        rsp := s.rsp.set .p (s.rsp.p ++ [(BitVec.ofNat 24 (groupsOf len s)).setWidth 32]) }
    else s) := by
  unfold execPkt
  split <;> rfl

/-- CAP: its whole effect when enabled, nothing when held. -/
theorem execCap_eq (occ : Nat) (s : State) : execCap occ s = .next
    (if capEnabled occ s then
      { s with
        nativeIn := s.nativeIn.drop (s.params.CH * s.frameSize occ)
        wireOut := s.wireOut ++ nativeToWire (s.nativeIn.take (s.params.CH * s.frameSize occ))
        rsp := s.rsp.set .c (s.rsp.c ++ [(BitVec.ofNat 24 (s.frameSize occ)).setWidth 32]) }
    else s) := by
  unfold execCap
  split <;> rfl

/-- FSIZE: its whole effect. -/
theorem execFsize_eq (occ : Nat) (s : State) : execFsize occ s = .next
    { s with rsp := s.rsp.set .c (s.rsp.c ++ [(BitVec.ofNat 24 (s.frameSize occ)).setWidth 32]) } :=
  rfl

/-- TICK: its whole effect. -/
theorem execTick_eq (occ : Nat) (s : State) : execTick occ s = .next
    (if s.fbEn then
      { s with est := s.nextEst occ, fbOut := s.fbOut ++ bytesOfReg (s.nextEst occ) }
    else s) := by
  unfold execTick
  split <;> rfl

/-- WR: its whole effect. -/
theorem execWr_eq (r : RegName) (v : Reg) (s : State) : execWr r v s = .next (s.writeReg r v) := rfl

/-- RD: its whole effect. -/
theorem execRd_eq (r : RegName) (s : State) : execRd r s = .next
    { s with
      rsp := s.rsp.set .h (s.rsp.h ++ [(s.readReg r).setWidth 32])
      illreg := s.illreg || isReserved r } := by
  cases r <;> simp [execRd, isReserved, State.respond, State.raise, PerPort.get]

/-- SYNCSET: its whole effect. -/
theorem execSyncset_eq (s : State) : execSyncset s = .next
    (if s.cfgValid then { s with est := s.nomFb, fbEn := true, sync := true }
    else { s with seqerr := true }) := by
  unfold execSyncset
  split <;> rfl

/-- CFGLD: its whole effect. -/
theorem execCfgld_eq (s : State) : execCfgld s = .next
    (if s.cfgldRefused then { s with cfgerr := true }
    else { s with rate := s.shRate, nframe := s.shNframe, nomFb := s.shNomfb, cfgValid := true }) := by
  unfold execCfgld
  split <;> rfl

/-- When CFGLD is refused (R165). -/
theorem cfgldRefused_iff (s : State) : s.cfgldRefused = true ↔
    s.pbRun = true ∨ s.capRun = true ∨ s.shNomfb.toNat < s.params.FB_MIN ∨
      s.params.FB_MAX < s.shNomfb.toNat := by
  simp [State.cfgldRefused, or_assoc]

/-! ### Every command -/

/-- Every command answers a next state: the block has no fault, and no arm of exec refuses (60_exceptions.md R190). -/
theorem exec_next (i : Instr) (s : State) : ∃ t, exec i s = .next t := by
  cases i with
  | syncset => exact ⟨_, execSyncset_eq s⟩
  | cfgld => exact ⟨_, execCfgld_eq s⟩
  | w2n n => exact ⟨_, execW2n_eq n s⟩
  | n2w n => exact ⟨_, execN2w_eq n s⟩
  | pkt n => exact ⟨_, execPkt_eq n s⟩
  | cap n => exact ⟨_, execCap_eq n s⟩
  | tick n => exact ⟨_, execTick_eq n s⟩
  | nop | wr _ _ | rd _ | syncclr | pstart | pstop | cstart | cstop | fsize _ => exact ⟨_, rfl⟩

/-- No command touches a queue, a parameter or an event to come: the step does. -/
theorem exec_keeps {i : Instr} {s t : State} (h : exec i s = .next t) :
    t.cmd = s.cmd ∧ t.params = s.params ∧ t.agenda = s.agenda := by
  cases i with
  | wr r v => injection h with h; subst h; cases r <;> exact ⟨rfl, rfl, rfl⟩
  | rd r => rw [exec, execRd_eq] at h; injection h with h; subst h; exact ⟨rfl, rfl, rfl⟩
  | syncset =>
    rw [exec, execSyncset_eq] at h; injection h with h; subst h; split <;> exact ⟨rfl, rfl, rfl⟩
  | cfgld =>
    rw [exec, execCfgld_eq] at h; injection h with h; subst h; split <;> exact ⟨rfl, rfl, rfl⟩
  | w2n n =>
    rw [exec, execW2n_eq] at h; injection h with h; subst h; split <;> exact ⟨rfl, rfl, rfl⟩
  | n2w n =>
    rw [exec, execN2w_eq] at h; injection h with h; subst h; split <;> exact ⟨rfl, rfl, rfl⟩
  | pkt n =>
    rw [exec, execPkt_eq] at h; injection h with h; subst h; split <;> exact ⟨rfl, rfl, rfl⟩
  | cap n =>
    rw [exec, execCap_eq] at h; injection h with h; subst h; split <;> exact ⟨rfl, rfl, rfl⟩
  | tick n =>
    rw [exec, execTick_eq] at h; injection h with h; subst h; split <;> exact ⟨rfl, rfl, rfl⟩
  | nop | syncclr | pstart | pstop | cstart | cstop | fsize _ =>
    injection h with h; subst h; exact ⟨rfl, rfl, rfl⟩

/-- Commands one after the other: the first one's state goes to the rest. -/
theorem execAll_cons {i : Instr} {rest : List Instr} {s t : State} (h : exec i s = .next t) :
    execAll (i :: rest) s = execAll rest t := by
  simp [execAll, h]

/-! ### One event and one step -/

theorem turn_idle {q : Port} {s : State} (h : s.cmd.get q = []) : turn q s = .next s := by
  simp [turn, takeHead, h]

theorem turn_held {q : Port} {s : State} (h : takeHead q s = .held) : turn q s = .next s := by
  simp [turn, h]

theorem turn_rejected {q : Port} {s : State} {w : Word} {rest : List Word} {e : Reject}
    (h : s.cmd.get q = w :: rest) (hd : decodeOn q w = .error e) :
    turn q s = .next ((s.setQueue q rest).raise .illop) := by
  simp [turn, takeHead, h, hd]

theorem turn_run {q : Port} {s : State} {w : Word} {rest : List Word} {i : Instr}
    (h : s.cmd.get q = w :: rest) (hd : decodeOn q w = .ok i) (he : enabled i s = true) :
    turn q s = exec i (s.setQueue q rest) := by
  simp [turn, takeHead, h, hd, he]

theorem turn_next (q : Port) (s : State) : ∃ t, turn q s = .next t := by
  unfold turn
  split
  · exact ⟨_, rfl⟩
  · exact ⟨_, rfl⟩
  · exact ⟨_, rfl⟩
  · exact exec_next _ _

/-- What a turn can do: nothing, raise ILLOP for the consumed head word, or run the head command. -/
theorem turn_cases {q : Port} {s t : State} (h : turn q s = .next t) :
    (t = s ∧ (s.cmd.get q = [] ∨ takeHead q s = .held)) ∨
    (∃ w rest e, s.cmd.get q = w :: rest ∧ decodeOn q w = .error e ∧
      t = (s.setQueue q rest).raise .illop) ∨
    (∃ w rest i, s.cmd.get q = w :: rest ∧ decodeOn q w = .ok i ∧ enabled i s = true ∧
      exec i (s.setQueue q rest) = .next t) := by
  unfold turn at h
  split at h
  · rename_i hd
    injection h with h
    exact .inl ⟨h.symm, .inl (takeHead_idle.mp hd)⟩
  · rename_i hd
    injection h with h
    exact .inl ⟨h.symm, .inr hd⟩
  · rename_i s' hd
    injection h with h
    obtain ⟨w, rest, e, h1, h2, h3⟩ := takeHead_rejected.mp hd
    exact .inr (.inl ⟨w, rest, e, h1, h2, h ▸ h3⟩)
  · rename_i i s' hd
    obtain ⟨w, rest, h1, h2, h3, rfl⟩ := takeHead_run.mp hd
    exact .inr (.inr ⟨w, rest, i, h1, h2, h3, h⟩)

/-- What a step that goes on can do. -/
theorem step_cases {s t : State} (h : step s = .next t) :
    s.params.Legal ∧
    ((s.agenda = [] ∧ t = s) ∨
     (∃ q es, s.agenda = .turn q :: es ∧ turn q (s.setAgenda es) = .next t) ∨
     (∃ q w es, s.agenda = .issue q w :: es ∧ t = (s.setAgenda es).issue q w) ∨
     (∃ bs es, s.agenda = .wireIn bs :: es ∧ t = (s.setAgenda es).feedWireIn bs) ∨
     (∃ ws es, s.agenda = .nativeIn ws :: es ∧ t = (s.setAgenda es).feedNativeIn ws) ∨
     (∃ es, s.agenda = .reset :: es ∧ t = (s.setAgenda es).resetInput)) := by
  unfold step at h
  split at h
  · rename_i hl
    refine ⟨hl, ?_⟩
    split at h
    · rename_i ha
      injection h with h
      exact .inl ⟨ha, h.symm⟩
    · rename_i e es ha
      refine .inr ?_
      cases e with
      | turn q => exact .inl ⟨q, es, ha, h⟩
      | issue q w =>
        injection h with h
        exact .inr (.inl ⟨q, w, es, ha, h.symm⟩)
      | wireIn bs =>
        injection h with h
        exact .inr (.inr (.inl ⟨bs, es, ha, h.symm⟩))
      | nativeIn ws =>
        injection h with h
        exact .inr (.inr (.inr (.inl ⟨ws, es, ha, h.symm⟩)))
      | reset =>
        injection h with h
        exact .inr (.inr (.inr (.inr ⟨es, ha, h.symm⟩)))
  · simp at h

/-- A step with legal parameters handles the head of the agenda. -/
theorem step_of_legal {s : State} (hl : s.params.Legal) {e : Event} {es : List Event}
    (ha : s.agenda = e :: es) : step s = handle e (s.setAgenda es) := by
  unfold step
  rw [if_pos hl, ha]

/-- Under legal parameters a step always goes on. -/
theorem step_next {s : State} (hl : s.params.Legal) : ∃ t, step s = .next t := by
  cases ha : s.agenda with
  | nil => exact ⟨s, by unfold step; rw [if_pos hl, ha]⟩
  | cons e es =>
    rw [step_of_legal hl ha]
    cases e
    · exact turn_next _ _
    all_goals exact ⟨_, rfl⟩

/-- The command the next step runs, from the head word of the port that has its turn. -/
theorem running_eq {q : Port} {s : State} {es : List Event} {w : Word} {rest : List Word}
    {i : Instr} (ha : s.agenda = .turn q :: es) (hc : s.cmd.get q = w :: rest)
    (hd : decodeOn q w = .ok i) (he : enabled i s = true) : s.running = some (q, i) := by
  have h : takeHead q (s.setAgenda es) = .run i ((s.setAgenda es).setQueue q rest) :=
    takeHead_run.mpr ⟨w, rest, by simpa using hc, hd, by simpa using he, rfl⟩
  unfold State.running
  rw [ha]
  simp only
  rw [h]

/-- What the next step runs is enabled, and allowed on its port. -/
theorem enabled_of_running {q : Port} {s : State} {i : Instr} (h : s.running = some (q, i)) :
    enabled i s = true ∧ q.Allows i := by
  unfold State.running at h
  split at h
  · rename_i q' es ha
    split at h
    · rename_i j u hu
      simp only [Option.some.injEq, Prod.mk.injEq] at h
      obtain ⟨rfl, rfl⟩ := h
      obtain ⟨w, rest, -, hd, he, -⟩ := takeHead_run.mp hu
      exact ⟨by simpa using he, (allows_of_decodeOn hd).1⟩
    all_goals simp at h
  · simp at h

/-- A step that is not the reset runs one command, or touches only queues, inputs and events to
come, or raises ILLOP. -/
theorem step_shape {s t : State} (h : step s = .next t) (hr : s.resetNext = false) :
    s.params.Legal ∧
    ((∃ q i w rest es, s.agenda = .turn q :: es ∧ s.cmd.get q = w :: rest ∧
        decodeOn q w = .ok i ∧ enabled i s = true ∧ s.running = some (q, i) ∧
        exec i ((s.setAgenda es).setQueue q rest) = .next t) ∨
     (∃ c wi ni ag, t = { s with cmd := c, wireIn := wi, nativeIn := ni, agenda := ag }) ∨
     (∃ c ag, t = { s with cmd := c, agenda := ag, illop := true })) := by
  obtain ⟨hl, ⟨ha, rfl⟩ | ⟨q, es, ha, ht⟩ | ⟨q, w, es, ha, rfl⟩ | ⟨bs, es, ha, rfl⟩ |
    ⟨ws, es, ha, rfl⟩ | ⟨es, ha, rfl⟩⟩ := step_cases h
  · exact ⟨hl, .inr (.inl ⟨t.cmd, t.wireIn, t.nativeIn, t.agenda, rfl⟩)⟩
  · refine ⟨hl, ?_⟩
    obtain ⟨rfl, -⟩ | ⟨w, rest, e, h1, h2, rfl⟩ | ⟨w, rest, i, h1, h2, h3, h4⟩ := turn_cases ht
    · exact .inr (.inl ⟨_, _, _, _, rfl⟩)
    · exact .inr (.inr ⟨_, _, rfl⟩)
    · simp at h1 h3
      exact .inl ⟨q, i, w, rest, es, ha, h1, h2, h3, running_eq ha h1 h2 h3, h4⟩
  · exact ⟨hl, .inr (.inl ⟨_, _, _, _, rfl⟩)⟩
  · exact ⟨hl, .inr (.inl ⟨_, _, _, _, rfl⟩)⟩
  · exact ⟨hl, .inr (.inl ⟨_, _, _, _, rfl⟩)⟩
  · simp [State.resetNext, ha] at hr

end Sys2Proof.Machine
end

