-- ==== Sys2Proof/Laws/PerInstr.lean ====
section
/-! SUPPORT. One lemma per command: its encoding selects its own row of the opcode map (30_encoding.md R84), and that row's ports are the command's (R86). -/

namespace Sys2Proof.Laws.SelectsRow

/-- The row of R84 a command belongs to. -/
def mnemonicOf : Instr → Mnemonic
  | .nop => .NOP
  | .wr _ _ => .WR
  | .rd _ => .RD
  | .syncclr => .SYNCCLR
  | .syncset => .SYNCSET
  | .cfgld => .CFGLD
  | .pstart => .PSTART
  | .pstop => .PSTOP
  | .cstart => .CSTART
  | .cstop => .CSTOP
  | .w2n _ => .W2N
  | .n2w _ => .N2W
  | .pkt _ => .PKT
  | .cap _ => .CAP
  | .fsize _ => .FSIZE
  | .tick _ => .TICK

/-- The word of the command selects the command's row, and the row allows the ports of R86. -/
def Statement (i : Instr) : Prop :=
  ∃ r ∈ opcodeTable, rowOf (encode i) = some r ∧ r.mnemonic = mnemonicOf i ∧ r.ports = i.ports

/-- The row is settled by its mnemonic. -/
theorem of_mnemonic {i : Instr}
    (h : mnemonicOfFields (opField (encode i)) (aField (encode i)) (immField (encode i)) =
      some (mnemonicOf i))
    (hp : ∀ r ∈ opcodeTable, r.mnemonic = mnemonicOf i → r.ports = i.ports) : Statement i := by
  rw [← rowOf_mnemonic, Option.map_eq_some_iff] at h
  obtain ⟨r, hr, hm⟩ := h
  exact ⟨r, mem_of_rowOf hr, hr, hm, hp r (mem_of_rowOf hr) hm⟩

theorem nop : Statement .nop :=
  of_mnemonic (by simp [encode, mnemonicOfFields, mnemonicOf]) (by simp [opcodeTable, mnemonicOf, Instr.ports])

theorem wr (r : RegName) (v : Reg) : Statement (.wr r v) :=
  of_mnemonic (by simp [encode, mnemonicOfFields, mnemonicOf]) (by simp [opcodeTable, mnemonicOf, Instr.ports])

theorem rd (r : RegName) : Statement (.rd r) :=
  of_mnemonic (by simp [encode, mnemonicOfFields, mnemonicOf]) (by simp [opcodeTable, mnemonicOf, Instr.ports])

theorem syncclr : Statement .syncclr :=
  of_mnemonic (by simp [encode, mnemonicOfFields, mnemonicOf]) (by simp [opcodeTable, mnemonicOf, Instr.ports])

theorem syncset : Statement .syncset :=
  of_mnemonic (by simp [encode, mnemonicOfFields, mnemonicOf]) (by simp [opcodeTable, mnemonicOf, Instr.ports])

theorem cfgld : Statement .cfgld :=
  of_mnemonic (by simp [encode, mnemonicOfFields, mnemonicOf]) (by simp [opcodeTable, mnemonicOf, Instr.ports])

theorem pstart : Statement .pstart :=
  of_mnemonic (by simp [encode, mnemonicOfFields, mnemonicOf]) (by simp [opcodeTable, mnemonicOf, Instr.ports])

theorem pstop : Statement .pstop :=
  of_mnemonic (by simp [encode, mnemonicOfFields, mnemonicOf]) (by simp [opcodeTable, mnemonicOf, Instr.ports])

theorem cstart : Statement .cstart :=
  of_mnemonic (by simp [encode, mnemonicOfFields, mnemonicOf]) (by simp [opcodeTable, mnemonicOf, Instr.ports])

theorem cstop : Statement .cstop :=
  of_mnemonic (by simp [encode, mnemonicOfFields, mnemonicOf]) (by simp [opcodeTable, mnemonicOf, Instr.ports])

theorem w2n (n : Nat) : Statement (.w2n n) :=
  of_mnemonic (by simp [encode, mnemonicOfFields, mnemonicOf]) (by simp [opcodeTable, mnemonicOf, Instr.ports])

theorem n2w (n : Nat) : Statement (.n2w n) :=
  of_mnemonic (by simp [encode, mnemonicOfFields, mnemonicOf]) (by simp [opcodeTable, mnemonicOf, Instr.ports])

theorem pkt (n : Nat) : Statement (.pkt n) :=
  of_mnemonic (by simp [encode, mnemonicOfFields, mnemonicOf]) (by simp [opcodeTable, mnemonicOf, Instr.ports])

theorem cap (n : Nat) : Statement (.cap n) :=
  of_mnemonic (by simp [encode, mnemonicOfFields, mnemonicOf]) (by simp [opcodeTable, mnemonicOf, Instr.ports])

theorem fsize (n : Nat) : Statement (.fsize n) :=
  of_mnemonic (by simp [encode, mnemonicOfFields, mnemonicOf]) (by simp [opcodeTable, mnemonicOf, Instr.ports])

theorem tick (n : Nat) : Statement (.tick n) :=
  of_mnemonic (by simp [encode, mnemonicOfFields, mnemonicOf]) (by simp [opcodeTable, mnemonicOf, Instr.ports])

end Sys2Proof.Laws.SelectsRow
end

