-- ==== Sys2Proof/Laws/Run.lean ====
section
/-! SUPPORT. Several steps: `runSteps` is the host's `Core.run` of this machine, and how it unrolls. -/

namespace Sys2Proof.Machine

open Host (Outcome)

@[simp] theorem runSteps_zero (s : State) : runSteps 0 s = .next s := rfl

theorem runSteps_next {n : Nat} {s t : State} (h : step s = .next t) :
    runSteps (n + 1) s = runSteps n t := by
  simp only [runSteps, h]

/-- A run that ends in a state made each of its steps to a next state. -/
theorem runSteps_succ {n : Nat} {s u : State} (h : runSteps (n + 1) s = .next u) :
    ∃ t, step s = .next t ∧ runSteps n t = .next u := by
  simp only [runSteps] at h
  split at h
  · rename_i t ht
    exact ⟨t, ht, h⟩
  · simp at h
  · simp at h

theorem core_run_next {M : Host.Core} {n : Nat} {s t : M.State} (h : M.step s = .next t) :
    M.run (n + 1) s = M.run n t := by
  rw [Host.Core.run.eq_2, h]

theorem core_run_fault {M : Host.Core} {n : Nat} {s : M.State} {r : M.Fault}
    (h : M.step s = .fault r) : M.run (n + 1) s = .fault r := by
  rw [Host.Core.run.eq_2, h]

theorem core_run_refused {M : Host.Core} {n : Nat} {s : M.State} {r : M.Refusal}
    (h : M.step s = .refused r) : M.run (n + 1) s = .refused r := by
  rw [Host.Core.run.eq_2, h]

theorem runSteps_eq_core_run (n : Nat) (s : State) : Host.Core.run core n s = runSteps n s := by
  induction n generalizing s with
  | zero => exact Host.Core.run.eq_1 core s
  | succ n ih =>
    unfold runSteps
    cases h : step s with
    | next t => exact (core_run_next (M := core) h).trans (ih t)
    | fault r => exact core_run_fault (M := core) h
    | refused r => exact core_run_refused (M := core) h

end Sys2Proof.Machine
end

