-- ==== Sys2Proof/Laws/Values.lean ====
section
/-! SUPPORT. What the value functions give: parameters (00_scope.md R7), registers (10_state.md R24 to R26), frame size (43_frame_sizer.md R135), estimate step (44_feedback.md R146), group count (42_realign.md R121). -/

namespace Sys2Proof.Machine

/-- The two shapes of a legal sample-group: mono and stereo (R7). -/
theorem shape_of_legal {p : Params} (h : p.Legal) : (p.W = 3 ∧ p.CH = 1) ∨ (p.W = 6 ∧ p.CH = 2) := by
  unfold Params.Legal at h
  omega

/-- `W` bytes a group on the wire are 3 bytes a channel-sample (41_converter.md R110). -/
theorem groupBytes_of_legal {p : Params} (h : p.Legal) (n : Nat) : p.W * n = 3 * (p.CH * n) := by
  obtain ⟨a, b⟩ | ⟨a, b⟩ := shape_of_legal h <;> rw [a, b] <;> omega

/-- Whole groups, by index. -/
theorem wireToNative_groups {p : Params} (h : p.Legal) (b : List Byte) (n : Nat)
    (hn : p.W * n ≤ b.length) : wireToNative (b.take (p.W * n)) = wordsAt b (p.CH * n) := by
  rw [groupBytes_of_legal h] at hn ⊢
  exact wireToNative_take b _ hn

/-- A 24-bit answer, zero-extended (30_encoding.md R91). -/
theorem answer_eq (n : Nat) : (BitVec.ofNat 24 n).setWidth 32 = BitVec.ofNat 32 (n % 2 ^ 24) := by
  apply BitVec.eq_of_toNat_eq
  simp

/-- Register CARRY holds the low three bits of the carry; `carry < 8` always holds of a legal state. -/
theorem carryWord_toNat (s : State) : s.carryWord.toNat = s.carry % 8 := by
  unfold State.carryWord
  rw [toNat_append_add]
  simp

/-- The frame size is clamped, so it fits an answer. -/
theorem frameSize_lt {s : State} (h : s.params.Legal) (occ : Nat) :
    s.frameSize occ ≤ s.params.NMAX ∧ s.frameSize occ < 2 ^ 24 := by
  have hle : s.frameSize occ ≤ s.params.NMAX := Nat.min_le_right _ _
  unfold Params.Legal at h
  omega

/-- The stepped estimate fits the register: its value is the integer step (44_feedback.md R146, R152). -/
theorem nextEst_toNat {s : State} (h : s.params.Legal) (occ : Nat) :
    ((s.nextEst occ).toNat : Int) = fbStepInt s.params s.nframe.toNat s.est.toNat occ := by
  have he := s.est.isLt
  unfold Params.Legal at h
  have hb : 0 ≤ fbStepInt s.params s.nframe.toNat s.est.toNat occ ∧
      fbStepInt s.params s.nframe.toNat s.est.toNat occ < 2 ^ 24 := by
    unfold fbStepInt
    split
    · omega
    · split <;> omega
  unfold State.nextEst
  rw [BitVec.toNat_ofInt]
  omega

end Sys2Proof.Machine
end

