-- ==== Sys2Proof/Tests/Slice0.lean ====
section
/-! SUPPORT. Tests: ill-formed terms refused, words written out from the encoding, one step of each command against 95_test_vectors.md, and a witness for the hypotheses of every statement. -/

namespace Sys2Proof.Tests

open Sys2Proof.Machine
open Host (Outcome)

/-! ### Helpers -/

/-- The outcome is a next state with this property. -/
def shows (o : Outcome State Fault Refusal) (p : State → Bool) : Bool :=
  match o with
  | .next t => p t
  | .fault _ => false
  | .refused _ => false

/-- Profile P0 with `W = 3`, `CH = 1`. -/
def mono : Params := { Params.P0 with W := 3, CH := 1 }

/-- The bounds of the CFGLD rows of 95_test_vectors.md 2.6. -/
def bounded : Params := { Params.P0 with FB_MIN := 0x0A0000, FB_MAX := 0x0D0000 }

/-- A machine at work: STATUS `0x1F`, a frame of 2 sample-groups, input on both sides. -/
def live : State :=
  { State.reset with
    sync := true, fbEn := true, pbRun := true, capRun := true, cfgValid := true
    nframe := 2, est := 0x008000, nomFb := 0x008000, shNomfb := 0x008000
    wireIn := [0x10, 0x11, 0x12, 0x13, 0x14, 0x15, 0x16, 0x17, 0x18, 0x19, 0x1A, 0x1B]
    nativeIn := [0x010203F0, 0x040506F1, 0x0708090A, 0x0A0B0C00] }

/-- `live` with a word in the queue of a port whose turn is next. -/
def liveWith (q : Port) (w : Word) : State := live.withCommand q w

/-- The state after reset, with a word in the queue of a port whose turn is next. -/
def resetWithWord (q : Port) (w : Word) : State := State.reset.withCommand q w

/-! ### Well-formedness and port rights: ill-formed terms are refused -/

theorem test_w2n_too_wide : ¬ (Instr.w2n (2 ^ 24)).WellFormed := by decide
theorem test_n2w_too_wide : ¬ (Instr.n2w (2 ^ 24)).WellFormed := by decide
theorem test_pkt_too_wide : ¬ (Instr.pkt (2 ^ 24)).WellFormed := by decide
theorem test_cap_too_wide : ¬ (Instr.cap (2 ^ 24)).WellFormed := by decide
theorem test_fsize_too_wide : ¬ (Instr.fsize (2 ^ 24)).WellFormed := by decide
theorem test_tick_too_wide : ¬ (Instr.tick (2 ^ 24)).WellFormed := by decide
theorem test_wr_not_on_p : ¬ Port.p.Allows (.wr .shNframe 48) := by decide
theorem test_pstart_not_on_c : ¬ Port.c.Allows .pstart := by decide
theorem test_tick_not_on_c : ¬ Port.c.Allows (.tick 46) := by decide
theorem test_nop_on_every_port : ∀ q ∈ allPorts, q.Allows .nop := by decide

/-! ### Decoding: one word of every command, bit by bit (30_encoding.md R81, R84; 95_test_vectors.md 2.1) -/

theorem test_decode_nop : decode 0b00000000000000000000000000000000#32 = .ok .nop := by decide
theorem test_decode_wr :
    decode 0b00010100000000000000000000000101#32 = .ok (.wr .est 5) := by decide
theorem test_decode_rd : decode 0b00101111000000000000000000000000#32 = .ok (.rd .r15) := by decide
theorem test_decode_syncclr :
    decode 0b00110000000000000000000000000000#32 = .ok .syncclr := by decide
theorem test_decode_syncset :
    decode 0b00110001000000000000000000000000#32 = .ok .syncset := by decide
theorem test_decode_cfgld : decode 0b00110010000000000000000000000000#32 = .ok .cfgld := by decide
theorem test_decode_pstart : decode 0b00110100000000000000000000000000#32 = .ok .pstart := by decide
theorem test_decode_pstop : decode 0b00110101000000000000000000000000#32 = .ok .pstop := by decide
theorem test_decode_cstart : decode 0b00110110000000000000000000000000#32 = .ok .cstart := by decide
theorem test_decode_cstop : decode 0b00110111000000000000000000000000#32 = .ok .cstop := by decide
theorem test_decode_w2n : decode 0b01000000000000000000000000000010#32 = .ok (.w2n 2) := by decide
theorem test_decode_n2w : decode 0b01010000000000000000000000000001#32 = .ok (.n2w 1) := by decide
theorem test_decode_pkt :
    decode 0b01100000111111111111111111111111#32 = .ok (.pkt 16777215) := by decide
theorem test_decode_cap : decode 0b01110000000000000000000000110000#32 = .ok (.cap 48) := by decide
theorem test_decode_fsize :
    decode 0b10000000000000000000000001100100#32 = .ok (.fsize 100) := by decide
theorem test_decode_tick : decode 0b10010000000000000000000000101110#32 = .ok (.tick 46) := by decide

/-- The reserved words of 95_test_vectors.md 2.1. -/
theorem test_reserved_words :
    [0x00000001#32, 0x01000000#32, 0x20000001#32, 0x33000000#32, 0x38000000#32].all (fun w => decide (decode w = .error .reservedWord)) = true := by
  decide

theorem test_reserved_words_2 :
    [0x3F000000#32, 0x30000001#32, 0x41000002#32, 0x91000000#32, 0xA0000000#32].all (fun w => decide (decode w = .error .reservedWord)) = true := by
  decide

/-- The words on a wrong port of 95_test_vectors.md 2.1. -/
theorem test_wrong_port :
    decodeOn .p 0x19000030 = .error .notAllowedOnPort ∧
    decodeOn .c 0x34000000 = .error .notAllowedOnPort ∧
    decodeOn .c 0x40000002 = .error .notAllowedOnPort ∧
    decodeOn .h 0x60000004 = .error .notAllowedOnPort ∧
    decodeOn .f 0x80000064 = .error .notAllowedOnPort ∧
    decodeOn .c 0x9000002E = .error .notAllowedOnPort := by decide

theorem test_encode_fields :
    encode (.wr .shNframe 48) = 0x19000030 ∧ encode (.rd .err) = 0x22000000 ∧
    encode .cstop = 0x37000000 ∧ encode (.tick 46) = 0x9000002E := by decide

/-- Lines of 95_test_vectors.md P1 in the assembler syntax of 30_encoding.md R92. -/
theorem test_assemblerLine :
    assemblerLine .h (.wr .shNframe 48) = "H: WR SH_NFRAME, 48" ∧
    assemblerLine .p (.pkt 4) = "P: PKT 4" ∧ assemblerLine .h (.rd .status) = "H: RD STATUS" := by
  decide

/-! ### The host's entries: the next step runs the placed word -/

theorem test_decodeTableWord :
    decodeTableWord 32 0x60000061 = some (.pkt 97) ∧ decodeTableWord 32 0xA0000000 = none := by
  decide

/-- WR placed at reset writes its register in the very next step, and leaves no word behind. -/
theorem test_withFetchWord_wr :
    shows (step (State.reset.withFetchWord 32 0x19000030))
      (fun t => t.shNframe == 0x000030 && t.cmd == State.reset.cmd && t.agenda == []) = true := by
  decide

/-- TICK goes to port F; at reset FB_EN is 0, so it does nothing (44_feedback.md R147). -/
theorem test_withFetchWord_tick :
    shows (step (State.reset.withFetchWord 32 0x9000002E)) (fun t => t == State.reset) = true := by
  decide

/-! ### One step of each command (95_test_vectors.md) -/

theorem test_nop : shows (exec .nop live) (fun t => t == live) = true := by decide

theorem test_wr_shadow :
    shows (exec (.wr .shRate 0xFFFFFF) State.reset) (fun t => t.shRate == 0xFFFFFF && t.errWord == 0) = true := by
  decide

theorem test_wr_read_only :
    shows (exec (.wr .est 5) live) (fun t => t.est == 0x008000 && t.errWord == 0x2) = true := by
  decide

theorem test_rd_id :
    shows (exec (.rd .id) State.reset) (fun t => t.rsp.h == [0x00535743] && t.errWord == 0) = true := by
  decide

theorem test_rd_err_keeps_err :
    shows (exec (.rd .err) { State.reset with illreg := true, seqerr := true })
      (fun t => t.rsp.h == [0x0000000A] && t.errWord == 0xA) = true := by decide

theorem test_rd_reserved :
    shows (exec (.rd .r11) State.reset) (fun t => t.rsp.h == [0] && t.errWord == 0x2) = true := by
  decide

theorem test_syncclr :
    shows (exec .syncclr { live with capRun := false }) (fun t => t.statusWord == 0x16) = true := by
  decide

theorem test_syncclr_with_parameter :
    shows (exec .syncclr { live with capRun := false, params := { Params.P0 with FBEN_CLR_ON_SYNCCLR := true } })
      (fun t => t.statusWord == 0x14) = true := by decide

theorem test_syncset :
    shows (exec .syncset { State.reset with pbRun := true, cfgValid := true, nomFb := 0x0C0000, est := 0x0B0666 })
      (fun t => t.statusWord == 0x17 && t.est == 0x0C0000 && t.fbOut == []) = true := by decide

theorem test_syncset_without_configuration :
    shows (exec .syncset State.reset) (fun t => t.statusWord == 0 && t.errWord == 0x8) = true := by
  decide

theorem test_cfgld :
    shows (exec .cfgld { State.reset with shRate := 0x00BB80, shNframe := 0x000030, shNomfb := 0x0C0000 })
      (fun t => t.rate == 0x00BB80 && t.nframe == 0x000030 && t.nomFb == 0x0C0000 &&
        t.statusWord == 0x10 && t.est == 0) = true := by decide

theorem test_cfgld_out_of_bounds :
    shows (exec .cfgld { State.resetWith bounded with shNomfb := 0x0D0001 })
      (fun t => t.nomFb == 0 && t.statusWord == 0 && t.errWord == 0x4) = true := by decide

theorem test_pstart_restart :
    shows (exec .pstart { live with pend := [1, 2, 3, 4] })
      (fun t => t.pend == [] && t.carryWord == 0 && t.pbRun && t.wireIn == live.wireIn) = true := by
  decide

theorem test_pstop :
    shows (exec .pstop { live with pend := [1, 2] })
      (fun t => t.pend == [] && t.statusWord == 0x1B) = true := by decide

theorem test_cstart :
    shows (exec .cstart { live with pbRun := false, capRun := false }) (fun t => t.statusWord == 0x1B) = true := by
  decide

theorem test_cstop :
    shows (exec .cstop { live with pbRun := false }) (fun t => t.statusWord == 0x13) = true := by
  decide

theorem test_w2n_stereo :
    shows (exec (.w2n 2) live)
      (fun t => t.nativeOut == [0x12111000, 0x15141300, 0x18171600, 0x1B1A1900] && t.wireIn == []) = true := by
  decide

theorem test_w2n_mono_leaves_the_rest :
    shows (exec (.w2n 2) { State.resetWith mono with wireIn := [1, 2, 3, 4, 5, 6, 7] })
      (fun t => t.nativeOut == [0x03020100, 0x06050400] && t.wireIn == [7]) = true := by decide

theorem test_n2w_mono :
    shows (exec (.n2w 3) { State.resetWith mono with nativeIn := [0xAABBCCDD, 0x11223344, 0x55667788] })
      (fun t => t.wireOut == [0xCC, 0xBB, 0xAA, 0x33, 0x22, 0x11, 0x77, 0x66, 0x55] &&
        t.nativeIn == []) = true := by decide

theorem test_pkt_completes_a_group :
    shows (exec (.pkt 5) { live with pend := [0xA0, 0xA1, 0xA2, 0xA3], wireIn := [0xA4, 0xA5, 0xB0, 0xB1, 0xB2] })
      (fun t => t.nativeOut == [0xA2A1A000, 0xA5A4A300] && t.pend == [0xB0, 0xB1, 0xB2] &&
        t.carryWord == 3 && t.rsp.p == [1]) = true := by decide

theorem test_pkt_mono_short :
    shows (exec (.pkt 1) { live with params := mono, pend := [0xC0], wireIn := [0xC1] })
      (fun t => t.nativeOut == [] && t.pend == [0xC0, 0xC1] && t.carryWord == 2 && t.rsp.p == [0]) = true := by
  decide

theorem test_cap_sends_one_frame :
    shows (exec (.cap 2) live)
      (fun t => t.wireOut == [3, 2, 1, 6, 5, 4, 9, 8, 7, 0x0C, 0x0B, 0x0A] && t.rsp.c == [2] &&
        t.nativeIn == []) = true := by decide

theorem test_cap_of_nothing :
    shows (exec (.cap 0) { live with nativeIn := [] })
      (fun t => t.wireOut == [] && t.rsp.c == [0]) = true := by decide

theorem test_fsize_up_and_down :
    shows (exec (.fsize 100) { live with nframe := 96 }) (fun t => t.rsp.c == [98]) = true ∧
    shows (exec (.fsize 90) { live with nframe := 96 }) (fun t => t.rsp.c == [94]) = true := by decide

theorem test_fsize_clamped :
    shows (exec (.fsize 300) { live with nframe := 200 }) (fun t => t.rsp.c == [170]) = true ∧
    shows (exec (.fsize 0) { live with nframe := 1 }) (fun t => t.rsp.c == [0]) = true := by decide

theorem test_tick_up :
    shows (exec (.tick 46) { live with nframe := 48, est := 0x0C0001 })
      (fun t => t.est == 0x0C0002 && t.fbOut == [0x02, 0x00, 0x0C]) = true := by decide

theorem test_tick_saturates :
    shows (exec (.tick 0) { live with nframe := 48, est := 0xFFFFFF })
      (fun t => t.est == 0xFFFFFF && t.fbOut == [0xFF, 0xFF, 0xFF]) = true ∧
    shows (exec (.tick 2) { live with nframe := 0, est := 0x000100 })
      (fun t => t.est == 0x0000FF && t.fbOut == [0xFF, 0x00, 0x00]) = true := by decide

/-- A word on a wrong port: consumed, ILLOP, nothing else (95_test_vectors.md P4, step 6). -/
theorem test_illop :
    shows (step (resetWithWord .p 0x19000030))
      (fun t => t == { State.reset with illop := true }) = true := by decide

/-- A PKT at a closed gate stays at the head (95_test_vectors.md P1, step 6). -/
theorem test_held_stays :
    shows (step (resetWithWord .p 0x60000004))
      (fun t => t == { State.reset with cmd := ⟨[], [0x60000004], [], []⟩ }) = true := by decide

/-! ### Witnesses: the hypotheses of every statement can be met -/

/-- DecodeOfEncode: operands at both ends of the field. -/
theorem witness_wellFormed :
    (Instr.pkt 0).WellFormed ∧ (Instr.pkt 16777215).WellFormed ∧ (Instr.wr .r15 0xFFFFFF).WellFormed := by
  decide

/-- WordsAsNumbers: both ends of the operand field. -/
theorem witness_wordsAsNumbers : 0 < 2 ^ 24 ∧ 16777215 < 2 ^ 24 := by decide

/-- EncodeOfDecode, OperandsTakenAsTheyStand: a word with a count, one with a register and a value, one with a register. -/
theorem witness_decode :
    decode 0x60FFFFFF = .ok (.pkt 16777215) ∧ 16777215 ∈ (Instr.pkt 16777215).count ∧
    decode 0x1AFFFFFF = .ok (.wr .shNomfb 0xFFFFFF) ∧ decode 0x2F000000 = .ok (.rd .r15) := by decide

/-- RowsAreDisjoint: a row selected by its own pattern. -/
theorem witness_rowsAreDisjoint : ∀ r ∈ opcodeTable, r.selects r.pattern = true := by decide

/-- ReservedWordsRaiseIllop: boundary words of the classes of R88. -/
theorem witness_reservedWords :
    [0xA0000000#32, 0xFFFFFFFF#32, 0x00000001#32, 0x0FFFFFFF#32, 0x20000001#32].all (fun w => decide (rowOf w = none)) = true := by
  decide

theorem witness_reservedWords_2 :
    [0x33000000#32, 0x38000000#32, 0x37000001#32, 0x41000000#32, 0x9F000000#32].all (fun w => decide (rowOf w = none)) = true := by
  decide

/-- ReservedWordsRaiseIllop: a reserved word at the head of a queue, with its turn next. -/
theorem witness_reservedStep :
    (∀ r ∈ opcodeTable, r.selects 0xA0000000 = false) ∧
    (liveWith .c 0xA0000000).params.Legal ∧ (liveWith .c 0xA0000000).agenda = [.turn .c] ∧
    (liveWith .c 0xA0000000).cmd.get .c = [0xA0000000] := by decide

/-- ReservedWordsRaiseIllop: the words next to the classes are not reserved. -/
theorem witness_notReserved :
    [0x00000000#32, 0x1FFFFFFF#32, 0x2F000000#32, 0x32000000#32, 0x34000000#32].all (fun w => decide (rowOf w ≠ none)) = true := by
  decide

theorem witness_notReserved_2 :
    [0x37000000#32, 0x40000000#32, 0x90FFFFFF#32].all (fun w => decide (rowOf w ≠ none)) = true := by
  decide

/-- PortRights: a command word at the head of a port without the right. -/
theorem witness_portRights :
    (liveWith .h 0x60000004).params.Legal ∧ (liveWith .h 0x60000004).agenda = [.turn .h] ∧
    (liveWith .h 0x60000004).cmd.get .h = [0x60000004] ∧
    ∃ r ∈ opcodeTable, r.selects 0x60000004 = true ∧ Port.h ∉ r.ports := by decide

/-- StepRunsTheDecodedCommand: an enabled PKT at the head of port P. -/
theorem witness_stepRuns :
    (liveWith .p 0x6000000C).params.Legal ∧ (liveWith .p 0x6000000C).agenda = [.turn .p] ∧
    (liveWith .p 0x6000000C).cmd.get .p = [0x6000000C] ∧
    decodeOn .p 0x6000000C = .ok (.pkt 12) ∧ enabled (.pkt 12) (liveWith .p 0x6000000C) = true := by
  decide

/-- HeldCommandWaits: each of the four commands held by its own condition, at the boundary. -/
theorem witness_held :
    enabled (.pkt 12) live = true ∧ enabled (.pkt 13) live = false ∧
    enabled (.pkt 0) { live with sync := false } = false ∧
    enabled (.pkt 0) { live with pbRun := false } = false ∧
    enabled (.cap 2) live = true ∧ enabled (.cap 4) live = false ∧
    enabled (.cap 0) { live with capRun := false } = false ∧
    enabled (.w2n 2) live = true ∧ enabled (.w2n 3) live = false ∧
    enabled (.n2w 2) live = true ∧ enabled (.n2w 3) live = false := by decide

/-- HeldCommandWaits, QueueInIssueOrder: a held PKT at the head of port P with its turn. -/
theorem witness_heldStep :
    (liveWith .p 0x6000000D).params.Legal ∧ (liveWith .p 0x6000000D).agenda = [.turn .p] ∧
    (liveWith .p 0x6000000D).cmd.get .p = [0x6000000D] ∧
    decodeOn .p 0x6000000D = .ok (.pkt 13) ∧ enabled (.pkt 13) (liveWith .p 0x6000000D) = false ∧
    takeHead .p (liveWith .p 0x6000000D) = .held := by decide

/-- A held PKT on port P while port C has its turn with an FSIZE. -/
def heldBeside : State := (live.setQueue .p [0x6000000D]).withCommand .c 0x80000002

/-- QueueInIssueOrder: every clause, `turn`, `issue` and a held head beside another port. -/
theorem witness_queueOrder :
    shows (step (liveWith .h 0x20000000)) (fun t => t.cmd.h == []) = true ∧
    (live.setAgenda [.issue .f 0x9000002E]).params.Legal ∧
    heldBeside.params.Legal ∧ takeHead .p heldBeside = .held ∧ heldBeside.agenda = [.turn .c] ∧
    heldBeside.cmd.get .c = [0x80000002] ∧ decodeOn .c 0x80000002 = .ok (.fsize 2) ∧
    enabled (.fsize 2) heldBeside = true := by decide

/-- OutsideAppends, ResetEvent: each kind of event at the head of the agenda. -/
theorem witness_outside :
    live.params.Legal ∧ (live.setAgenda [.issue .f 0x9000002E]).agenda = [.issue .f 0x9000002E] ∧
    (live.setAgenda [.wireIn [1]]).agenda = [.wireIn [1]] ∧
    (live.setAgenda [.nativeIn [1]]).agenda = [.nativeIn [1]] ∧
    (live.setAgenda [.reset]).agenda = [.reset] := by decide

/-- IllegalParametersRefused: a state on each side, with the boundary of each constraint. -/
theorem witness_illegalParameters :
    (∀ p ∈ [{ Params.P0 with W := 4 }, { Params.P0 with CH := 1 }, { Params.P0 with MAXPKT := 2 ^ 24 },
      { Params.P0 with DELTA := 2 ^ 24 }, { Params.P0 with NMAX := 2 ^ 24 }, { Params.P0 with QUANTUM := 0 },
      { Params.P0 with QUANTUM := 2 ^ 24 }, { Params.P0 with FB_MIN := 0x1000000 },
      { Params.P0 with FB_MAX := 0x1000000 }], ¬ p.Legal) ∧
    (∀ p ∈ [mono, { Params.P0 with MAXPKT := 0, DELTA := 0, NMAX := 0, QUANTUM := 2 ^ 24 - 1, FB_MIN := 0xFFFFFF }],
      p.Legal) ∧
    shows (step live) (fun t => t == live) = true := by decide

/-- ResetMeetsInvariants: both shapes of a sample-group are legal. -/
theorem witness_legal : Params.P0.Legal ∧ mono.Legal ∧ bounded.Legal := by decide

/-- StepKeepsInvariants, StepKeepsStreamShapes: a state at work that meets both and steps. -/
theorem witness_invariants :
    (liveWith .p 0x60000007).Inv ∧ (liveWith .p 0x60000007).StreamInv ∧
    shows (step (liveWith .p 0x60000007)) (fun t => t.carry == 1) = true :=
  ⟨by decide, ⟨by decide, rfl, rfl, rfl, rfl, nofun, nofun, nofun⟩, by decide⟩

/-- ErrorBitsAndCfgValidStick, AtMostOneErrorPerStep: a step that is not the reset and raises an error. -/
theorem witness_errors :
    (liveWith .h 0x14000005).resetNext = false ∧ (liveWith .h 0x14000005).cfgValid = true ∧
    shows (step (liveWith .h 0x14000005)) (fun t => t.errWord == 2) = true := by decide

/-- EstChangesOnlyByTickOrSyncset: one step of each kind that changes EST. -/
theorem witness_estChanges :
    (liveWith .f 0x90000000).resetNext = false ∧
    shows (step (liveWith .f 0x90000000)) (fun t => t.est != (liveWith .f 0x90000000).est) = true ∧
    shows (step ({ live with est := 0 }.withCommand .h 0x31000000))
      (fun t => t.est == 0x008000) = true := by decide

/-- A stopped machine with another configuration in its shadow. -/
def stopped : State := { live with pbRun := false, capRun := false, shNframe := 48, shRate := 48000 }

/-- ConfigChangesOnlyByCfgldWhileStopped: a step that changes the configuration. -/
theorem witness_configChanges :
    (stopped.withCommand .h 0x32000000).resetNext = false ∧
    shows (step (stopped.withCommand .h 0x32000000)) (fun t => t.nframe == 48 && t.rate == 48000) = true := by
  decide

/-- DirectionFlagsHaveTheirOwnCommands: each of the four commands changing its flag. -/
theorem witness_directionFlags :
    shows (step (stopped.withCommand .h 0x34000000)) (fun t => t.pbRun) = true ∧
    shows (step (liveWith .h 0x35000000)) (fun t => !t.pbRun) = true ∧
    shows (step (stopped.withCommand .h 0x36000000)) (fun t => t.capRun) = true ∧
    shows (step (liveWith .h 0x37000000)) (fun t => !t.capRun) = true := by decide

/-- ClearParameterKeepsFlagsEqual: equal flags under the parameter, and a step that clears both. -/
theorem witness_clearParameter :
    let s := ({ live with params := { Params.P0 with FBEN_CLR_ON_SYNCCLR := true } }).withCommand .h 0x30000000
    s.params.FBEN_CLR_ON_SYNCCLR = true ∧ s.fbEn = s.sync ∧
      shows (step s) (fun t => !t.fbEn && !t.sync) = true := by decide

/-- A closed gate with a PKT waiting, and the host about to drop the pending bytes. -/
def gated : State :=
  ({ live with sync := false, pend := [0x90, 0x91] }.setQueue .p [0x60000000]).withCommand .h 0x35000000

/-- GateHoldsPackets: a closed gate, and a step that drops the pending bytes. -/
theorem witness_gate :
    gated.GateClosed ∧ shows (step gated) (fun t => t.pend == []) = true ∧
    shows (runSteps 1 gated) (fun t => t.pend == []) = true := by decide

/-- GateHoldsPackets: with the gate open the same PKT and a CAP are what the next step runs. -/
theorem witness_runsPacket :
    (liveWith .p 0x60000000).running = some (.p, .pkt 0) ∧
    (liveWith .c 0x70000002).running = some (.c, .cap 2) := by decide

/-- PortWritesOnlyItsOwnState: a turn of each port that goes on. -/
theorem witness_portWrites :
    shows (step (liveWith .h 0x31000000)) (fun t => t.sync) = true ∧
    shows (step (liveWith .p 0x40000001)) (fun t => t.nativeOut.length == 2) = true ∧
    shows (step (liveWith .c 0x50000001)) (fun t => t.wireOut.length == 6) = true ∧
    shows (step (liveWith .f 0x90000002)) (fun t => t.fbOut.length == 3) = true := by decide

/-- DataPortsCommute: two data ports with enabled heads. -/
theorem witness_commute :
    Port.p ≠ Port.h ∧ Port.c ≠ Port.h ∧ Port.p ≠ Port.c ∧
    shows (runSteps 2 { live with cmd := ⟨[], [0x40000001], [0x50000001], []⟩, agenda := [.turn .p, .turn .c] })
      (fun t => t.nativeOut.length == 2 && t.wireOut.length == 6) = true := by decide

/-- Ports in turn, for ever. -/
def roundRobin (n : Nat) : Event :=
  match n % 4 with
  | 0 => .turn .h
  | 1 => .turn .p
  | 2 => .turn .c
  | _ => .turn .f

/-- One of the next four turns is the port's. -/
theorem roundRobin_turn (q : Port) (n : Nat) : ∃ m, n ≤ m ∧ roundRobin m = .turn q := by
  have h : ∀ k < 4, roundRobin (4 * n + k) = roundRobin k := by
    intro k hk
    simp [roundRobin, Nat.add_mod]
  cases q
  · exact ⟨4 * n + 0, by omega, (h 0 (by omega)).trans rfl⟩
  · exact ⟨4 * n + 1, by omega, (h 1 (by omega)).trans rfl⟩
  · exact ⟨4 * n + 2, by omega, (h 2 (by omega)).trans rfl⟩
  · exact ⟨4 * n + 3, by omega, (h 3 (by omega)).trans rfl⟩

/-- FairScheduleTakesEveryTakeableHead: the round robin is fair, and a word waits at port H. -/
theorem witness_fair :
    let s := live.setQueue .h [0x20000000]
    s.params.Legal ∧ (∀ m, roundRobin m ≠ .reset) ∧ WeaklyFair roundRobin s ∧
    ((trace roundRobin s 0).cmd.get .h).head? = some 0x20000000 ∧
    (∀ m, 0 ≤ m → (∀ k, 0 ≤ k → k < m → roundRobin k ≠ .turn .h) →
      canTake .h (trace roundRobin s m) = true) := by
  refine ⟨by decide, ?_, fun q n _ => roundRobin_turn q n, rfl, ?_⟩
  · intro m
    unfold roundRobin
    split <;> simp
  · intro m _ hno
    cases m with
    | zero => decide
    | succ m => exact absurd rfl (hno 0 (by omega) (by omega))

/-- EndedRunShowsNothingMore: a completed run and a stuck one, with turns still to come. -/
theorem witness_ended :
    (live.setAgenda [.turn .h, .turn .p]).Completed ∧ (liveWith .p 0x6000000D).Stuck ∧
    shows (runSteps 2 (live.setAgenda [.turn .h, .turn .p])) (fun t => t == live) = true := by decide

/-- NopDoesNothing: a NOP at the head of port F. -/
theorem witness_nop :
    (liveWith .f 0x00000000).params.Legal ∧ (liveWith .f 0x00000000).agenda = [.turn .f] ∧
    (liveWith .f 0x00000000).cmd.get .f = [0x00000000] := by decide

/-- WrWritesShadowsOnly, RdAnswersTheRegister: register numbers at the boundaries of the clauses. -/
theorem witness_registerNumbers :
    (numberOfReg .id).toNat < 8 ∧ (numberOfReg .nomFb).toNat < 8 ∧ 10 < (numberOfReg .r11).toNat ∧
    10 < (numberOfReg .r15).toNat ∧ (numberOfReg .shNomfb).toNat ≤ 10 ∧ ¬ (numberOfReg .shRate).toNat < 8 ∧
    RegName.status ≠ .err := by decide

/-- RegisterLayouts: the largest carry the invariant allows. -/
theorem witness_carry : { live with pend := [1, 2, 3, 4, 5] }.Inv := by decide

/-- SyncclrClosesTheGate, SyncsetFinishesReconfiguration: both values of each condition. -/
theorem witness_syncConditions :
    State.reset.params.FBEN_CLR_ON_SYNCCLR = false ∧
    (State.resetWith { Params.P0 with FBEN_CLR_ON_SYNCCLR := true }).params.FBEN_CLR_ON_SYNCCLR = true ∧
    live.cfgValid = true ∧ State.reset.cfgValid = false := by decide

/-- CfgldReplacesConfiguration: SH_NOMFB at both bounds, and one step outside each. -/
theorem witness_cfgldBounds :
    let at' := fun v : Reg => { State.resetWith bounded with shNomfb := v }
    (at' 0x0A0000).cfgldRefused = false ∧ (at' 0x0D0000).cfgldRefused = false ∧
    (at' 0x09FFFF).cfgldRefused = true ∧ (at' 0x0D0001).cfgldRefused = true ∧
    { at' 0x0A0000 with pbRun := true }.cfgldRefused = true ∧
    { at' 0x0A0000 with capRun := true }.cfgldRefused = true := by decide

/-- StartAndStopCommands: both commands answer a next state. -/
theorem witness_startStop :
    shows (exec .pstart live) (fun t => t.pbRun) = true ∧ shows (exec .pstop live) (fun t => !t.pbRun) = true := by
  decide

/-- ReconfPreservesDirections: a nominal value inside the bounds. -/
theorem witness_reconf :
    bounded.FB_MIN ≤ (0x0B0666#24).toNat ∧ (0x0B0666#24).toNat ≤ bounded.FB_MAX ∧
    (State.resetWith bounded).params = bounded := by
  decide

/-- WidthConversionRoundTrips: a word and its bytes. -/
theorem witness_widthConversion : n2wCh 0x12345678 = [0x56, 0x34, 0x12] := by decide

/-- W2nConvertsGroups, N2wConvertsGroups, ConversionLengths: exactly enough input, and none. -/
theorem witness_converter :
    live.params.Legal ∧ live.params.W * 2 ≤ live.wireIn.length ∧ live.params.CH * 2 ≤ live.nativeIn.length ∧
    State.reset.params.W * 0 ≤ State.reset.wireIn.length ∧
    enabled (.w2n 2) live = true ∧ enabled (.n2w 2) live = true := by decide

/-- PktRealigns: a packet of exactly the bytes that are there. -/
theorem witness_pkt :
    live.params.Legal ∧ live.sync = true ∧ live.pbRun = true ∧ 12 ≤ live.wireIn.length ∧ live.Inv := by
  decide

/-- PktEmissionPlan, PktShortPacketAccumulates: pending bytes; a packet that just reaches the end of
the pending group, and one that just does not. -/
theorem witness_pktPending :
    let s := { live with pend := [0xA0, 0xA1, 0xA2, 0xA3] }
    s.Inv ∧ enabled (.pkt 2) s = true ∧ (s.params.W - s.carry) % s.params.W ≤ 2 ∧
    enabled (.pkt 1) s = true ∧ s.carry + 1 < s.params.W ∧
    shows (exec (.pkt 2) s) (fun t => t.carry == 0) = true := by decide

/-- PktZeroLengthIsNoOp: the gate open, and closed by each flag. -/
theorem witness_pktZero :
    live.Inv ∧ live.sync = true ∧ live.pbRun = true ∧
    { live with sync := false }.Inv ∧ { live with pbRun := false }.Inv :=
  ⟨by decide, rfl, rfl, by decide, by decide⟩

/-- PktTransitionTableMono: a mono machine with two pending bytes. -/
theorem witness_pktMono :
    let s := { live with params := mono, pend := [0xA0, 0xA1] }
    s.Inv ∧ s.params.W = 3 ∧ enabled (.pkt 5) s = true ∧
    shows (exec (.pkt 5) s) (fun t => t.carry == 1) = true := by decide

/-- PktCumulativeLaw: three packets that take all the input, one of them empty. -/
theorem witness_pktCumulative :
    live.params.Legal ∧ live.sync = true ∧ live.pbRun = true ∧ live.carry = 0 ∧
    [5, 0, 7].sum ≤ live.wireIn.length ∧ ∀ L ∈ [5, 0, 7], L < 2 ^ 24 := by decide

/-- PktRoundTripWithConverter: one frame out, its bytes back in three packets. -/
theorem witness_pktRoundTrip :
    live.params.Legal ∧ enabled (.n2w 2) live = true ∧
    (let u := { live with wireIn := nativeToWire live.nativeIn }
     shows (exec (.n2w 2) live) (fun t => u.wireIn == t.wireOut.drop live.wireOut.length) = true ∧
     u.params = live.params ∧ u.sync = true ∧ u.pbRun = true ∧ u.carry = 0) ∧
    [5, 0, 7].sum = live.params.W * 2 := by decide

/-- MaxPktIsReadByNoCommand: a command that answers a next state. -/
theorem witness_maxPkt : shows (exec (.pkt 12) live) (fun t => t.rsp.p == [2]) = true := by decide

/-- FsizeAnswersFrameSize: occupancies at the boundaries of its three clauses. -/
theorem witness_fsize :
    live.params.Legal ∧ live.nframe = 2 ∧ live.frameSize 4 = 4 ∧ live.frameSize 3 = 2 ∧
    live.frameSize 2 = 2 ∧ live.frameSize 1 = 0 := by decide

/-- FrameSizeHasNoHistory: two machines with the same inputs and different histories. -/
theorem witness_fsizeHistory :
    let s' := { live with wireOut := [1, 2, 3, 4, 5, 6], illop := true }
    live.nframe = s'.nframe ∧ live.params.DELTA = s'.params.DELTA ∧ live.params.NMAX = s'.params.NMAX ∧
    live.rsp.c = s'.rsp.c ∧ shows (exec (.fsize 9) live) (fun t => t.rsp.c == [4]) = true ∧
    shows (exec (.fsize 9) s') (fun t => t.rsp.c == [4]) = true := by decide

/-- CapSendsOneFrame, CapIsFsizeThenN2w: exactly the words of one frame. -/
theorem witness_cap :
    live.params.Legal ∧ live.sync = true ∧ live.capRun = true ∧
    live.params.CH * live.frameSize 2 ≤ live.nativeIn.length ∧ enabled (.cap 2) live = true := by decide

/-- TickStepsAndPublishes, TickChangeIsBounded, TickSteadyState: FB_EN at both values, occupancies at
the edges of the dead band. -/
theorem witness_tick :
    live.params.Legal ∧ live.fbEn = true ∧ State.reset.fbEn = false ∧ live.Inv ∧
    live.nextEst 0 = 0x008001 ∧ live.nextEst 1 = 0x008000 ∧ live.nextEst 3 = 0x008000 ∧
    live.nextEst 4 = 0x007FFF ∧ shows (exec (.tick 0) live) (fun t => t.est == 0x008001) = true ∧
    live.nframe.toNat ≤ 1 + 1 ∧ 3 ≤ live.nframe.toNat + 1 := by decide

end Sys2Proof.Tests
end

/-! ## Proofs: the parameters and the number format of 00_scope.md -/

namespace Sys2Proof.Machine

/-! ### MAXPKT is read by no command (R8) -/

/-- The state under another promise on packet length: only MAXPKT changes. -/
def State.withMaxPkt (m : Nat) (s : State) : State :=
  { s with params := { s.params with MAXPKT := m } }

section
variable (m : Nat) (s : State)

@[simp] theorem readReg_withMaxPkt (r : RegName) :
    (s.withMaxPkt m).readReg r = s.readReg r := by
  cases r <;> rfl

@[simp] theorem writeReg_withMaxPkt (r : RegName) (v : Reg) :
    (s.withMaxPkt m).writeReg r v = (s.writeReg r v).withMaxPkt m := by
  cases r <;> rfl

@[simp] theorem cfgldRefused_withMaxPkt :
    (s.withMaxPkt m).cfgldRefused = s.cfgldRefused := rfl

@[simp] theorem enabled_withMaxPkt (i : Instr) :
    enabled i (s.withMaxPkt m) = enabled i s := by
  cases i <;> rfl

/-- A conditional effect commutes with another promise: the condition does not see it, and both
branches commute. -/
theorem ite_eq_withMaxPkt {c c' : Bool} {u u' v v' : State} (hc : c' = c)
    (hu : u' = u.withMaxPkt m) (hv : v' = v.withMaxPkt m) :
    (if c' then u' else v') = (if c then u else v).withMaxPkt m := by
  rw [hc, hu, hv, apply_ite (State.withMaxPkt m)]

end

/-- A command whose effect `f` commutes with another promise does the same under it. -/
theorem exec_withMaxPkt_of_effect {i : Instr} {f : State → State} {m : Nat}
    {s t : State} (h : exec i s = .next t) (hexec : ∀ s, exec i s = .next (f s))
    (hcomm : ∀ s, f (s.withMaxPkt m) = (f s).withMaxPkt m) :
    exec i (s.withMaxPkt m) = .next (t.withMaxPkt m) := by
  obtain rfl : f s = t := Host.Outcome.next.inj ((hexec s).symm.trans h)
  rw [hexec, hcomm]

/-- Every command does the same under another promise on packet length. -/
theorem exec_withMaxPkt (m : Nat) {i : Instr} {s t : State} (h : exec i s = .next t) :
    exec i (s.withMaxPkt m) = .next (t.withMaxPkt m) := by
  cases i with
  | wr r v =>
    exact exec_withMaxPkt_of_effect h (execWr_eq r v) fun s => writeReg_withMaxPkt m s r v
  | rd r =>
    refine exec_withMaxPkt_of_effect h (execRd_eq r) fun s => ?_
    rw [readReg_withMaxPkt]
    rfl
  | syncset =>
    exact exec_withMaxPkt_of_effect h execSyncset_eq fun _ =>
      ite_eq_withMaxPkt m rfl rfl rfl
  | cfgld =>
    exact exec_withMaxPkt_of_effect h execCfgld_eq fun s =>
      ite_eq_withMaxPkt m (cfgldRefused_withMaxPkt m s) rfl rfl
  | w2n n =>
    exact exec_withMaxPkt_of_effect h (execW2n_eq n) fun s =>
      ite_eq_withMaxPkt m (enabled_withMaxPkt m s (.w2n n)) rfl rfl
  | n2w n =>
    exact exec_withMaxPkt_of_effect h (execN2w_eq n) fun s =>
      ite_eq_withMaxPkt m (enabled_withMaxPkt m s (.n2w n)) rfl rfl
  | pkt n =>
    exact exec_withMaxPkt_of_effect h (execPkt_eq n) fun s =>
      ite_eq_withMaxPkt m (enabled_withMaxPkt m s (.pkt n)) rfl rfl
  | cap n =>
    exact exec_withMaxPkt_of_effect h (execCap_eq n) fun s =>
      ite_eq_withMaxPkt m (enabled_withMaxPkt m s (.cap n)) rfl rfl
  | tick n =>
    exact exec_withMaxPkt_of_effect h (execTick_eq n) fun _ =>
      ite_eq_withMaxPkt m rfl rfl rfl
  | nop | syncclr | pstart | pstop | cstart | cstop | fsize _ =>
    exact exec_withMaxPkt_of_effect h (fun _ => rfl) fun _ => rfl

/-- Settles O52: every command's effect commutes with replacing MAXPKT. -/
theorem maxPktIsReadByNoCommand : Obligations.MaxPktIsReadByNoCommand := by
  intro i s t m h
  exact exec_withMaxPkt m h

/-! ### 10.14 fixed point (R15) and its three bytes (R54) -/

/-- A 24-bit value is its integer part, scaled by `2^14`, plus its fraction. -/
theorem toNat_eq_fixedInt_add_fixedFrac (v : Reg) :
    v.toNat = (fixedInt v).toNat * 2 ^ 14 + (fixedFrac v).toNat := by
  have hv := v.isLt
  simp only [fixedInt, fixedFrac, toNat_extract]
  omega

theorem fixedValue_eq_fixedInt_add_fixedFrac (v : Reg) :
    fixedValue v = (fixedInt v).toNat + ((fixedFrac v).toNat : ℚ) / 2 ^ 14 := by
  rw [fixedValue, toNat_eq_fixedInt_add_fixedFrac v]
  push_cast
  ring

/-- The three published bytes, least significant first, are the value in base 256. -/
theorem toNat_eq_bytes (v : Reg) :
    v.toNat = (v.extractLsb' 0 8).toNat + 256 * (v.extractLsb' 8 8).toNat +
      65536 * (v.extractLsb' 16 8).toNat := by
  have hv := v.isLt
  simp only [toNat_extract]
  omega

/-- Settles O60: both cuts of the value, at bit 14 and at bits 8 and 16, lose no bit. -/
theorem fixedPointFormat : Obligations.FixedPointFormat := by
  intro v
  exact ⟨fixedValue_eq_fixedInt_add_fixedFrac v, _, _, _, rfl, toNat_eq_bytes v⟩

end Sys2Proof.Machine

/-! ## Proofs: the state of 10_state.md -/

namespace Sys2Proof.Machine

open Host (Outcome)

/-! ### From a command's effect to what holds after it -/

/-- What holds of a command's effect holds of the state it answers. -/
theorem of_effect {P : State → Prop} {e : Outcome State Fault Refusal} {t u : State}
    (h : e = .next t) (heff : e = .next u) (hu : P u) : P t :=
  Host.Outcome.next.inj (heff.symm.trans h) ▸ hu

/-- The same for a conditional effect: it is enough to look at each branch under its condition. -/
theorem of_effect_ite {P : State → Prop} {e : Outcome State Fault Refusal} {t u v : State}
    {c : Bool} (h : e = .next t) (heff : e = .next (if c then u else v)) (hu : c = true → P u)
    (hv : ¬ c = true → P v) : P t := by
  refine of_effect h heff ?_
  split
  · exact hu (by assumption)
  · exact hv (by assumption)

/-! ### Frames: what a command leaves unchanged -/

theorem Part.Same.refl (x : Part) (s : State) : x.Same s s := by
  cases x <;> rfl

theorem SameExcept.refl (l : List Part) (s : State) : SameExcept l s s :=
  fun x _ => .refl x s

theorem SameExcept.mono {l l' : List Part} {s t : State} (h : SameExcept l s t)
    (hl : ∀ x ∈ l, x ∈ l') : SameExcept l' s t :=
  fun x hx => h x fun hm => hx (hl x hm)

theorem Part.Same.trans {x : Part} {s t u : State} (h : x.Same s t) (h' : x.Same t u) :
    x.Same s u := by
  cases x <;> exact Eq.trans h' h

/-- Frames compose. -/
theorem SameExcept.trans {l : List Part} {s t u : State} (h : SameExcept l s t)
    (h' : SameExcept l t u) : SameExcept l s u :=
  fun x hx => (h x hx).trans (h' x hx)

theorem sameExcept_raise_illop (s : State) : SameExcept [.illop] s (s.raise .illop) := by
  intro x hx
  cases x <;> simp_all [Part.Same]

theorem sameExcept_setQueue (q : Port) (ws : List Word) (s : State) :
    SameExcept [.cmd q] s (s.setQueue q ws) := by
  intro x hx
  cases x <;> simp_all [Part.Same]

theorem sameExcept_setAgenda (es : List Event) (s : State) :
    SameExcept [.agenda] s (s.setAgenda es) := by
  intro x hx
  cases x <;> simp_all [Part.Same]

/-- WR writes the register it names when that is a shadow, and ILLREG otherwise (R161). -/
theorem writeReg_frame (r : RegName) (v : Reg) (s : State) :
    SameExcept (writes (.wr r v)) s (s.writeReg r v) := by
  intro x hx
  cases r <;> cases x <;> simp_all [Part.Same, writes, State.writeReg, State.raise]

/-- RD writes only its answer, and ILLREG for a reserved number (R162). -/
theorem rdEffect_frame (r : RegName) (s : State) :
    SameExcept (writes (.rd r)) s
      { s with
        rsp := s.rsp.set .h (s.rsp.h ++ [(s.readReg r).setWidth 32])
        illreg := s.illreg || isReserved r } := by
  intro x hx
  cases hr : isReserved r <;> cases x <;> simp_all [Part.Same, writes]

/-- A command writes only what its rule's `State written` line names: its effect, branch by branch. -/
theorem exec_frame {i : Instr} {s t : State} (h : exec i s = .next t) :
    SameExcept (writes i) s t := by
  intro x hx
  have hheld : x.Same s s := .refl x s
  cases i
  case wr r v => exact of_effect h (execWr_eq r v s) (writeReg_frame r v s x hx)
  case rd r => exact of_effect h (execRd_eq r s) (rdEffect_frame r s x hx)
  case' syncset => refine of_effect_ite h (execSyncset_eq s) (fun _ => ?_) (fun _ => ?_)
  case' cfgld => refine of_effect_ite h (execCfgld_eq s) (fun _ => ?_) (fun _ => ?_)
  case' w2n n => refine of_effect_ite h (execW2n_eq n s) (fun _ => ?_) (fun _ => hheld)
  case' n2w n => refine of_effect_ite h (execN2w_eq n s) (fun _ => ?_) (fun _ => hheld)
  case' pkt len => refine of_effect_ite h (execPkt_eq len s) (fun _ => ?_) (fun _ => hheld)
  case' cap occ => refine of_effect_ite h (execCap_eq occ s) (fun _ => ?_) (fun _ => hheld)
  case' tick occ => refine of_effect_ite h (execTick_eq occ s) (fun _ => ?_) (fun _ => hheld)
  case' nop | syncclr | pstart | pstop | cstart | cstop | fsize => refine of_effect h rfl ?_
  all_goals cases x <;> simp_all [Part.Same, writes]

/-! ### Frames of a step -/

/-- The parts that an event writes when it neither runs a command, nor consumes an illegal word, nor
resets: queues, input streams and the events to come. -/
def outsideParts : List Part :=
  [.cmd .h, .cmd .p, .cmd .c, .cmd .f, .wireIn, .nativeIn, .agenda]

theorem sameExcept_outside (s : State) (c : PerPort (List Word)) (wi : List Byte)
    (ni : List Word) (ag : List Event) :
    SameExcept outsideParts s { s with cmd := c, wireIn := wi, nativeIn := ni, agenda := ag } := by
  intro x hx
  cases x with
  | cmd q => cases q <;> simp [outsideParts] at hx
  | wireIn | nativeIn | agenda => simp [outsideParts] at hx
  | _ => rfl

/-- A step that is not the reset runs one command, or writes only `outsideParts`, or consumes an
illegal word: `step_shape`, as frames. -/
theorem step_frames {s t : State} (h : step s = .next t) (hr : s.resetNext = false) :
    (∃ q i u, s.running = some (q, i) ∧ SameExcept outsideParts s u ∧ exec i u = .next t) ∨
    SameExcept outsideParts s t ∨
    (∃ u, SameExcept outsideParts s u ∧ t = u.raise .illop) := by
  obtain ⟨-, ⟨q, i, w, rest, es, -, -, -, -, hrun, hexec⟩ | ⟨c, wi, ni, ag, rfl⟩ |
    ⟨c, ag, rfl⟩⟩ := step_shape h hr
  · exact .inl ⟨q, i, _, hrun, sameExcept_outside s _ _ _ _, hexec⟩
  · exact .inr (.inl (sameExcept_outside s c wi ni ag))
  · exact .inr (.inr ⟨_, sameExcept_outside s c s.wireIn s.nativeIn ag, rfl⟩)

theorem step_of_resetNext {s t : State} (h : step s = .next t) (hr : s.resetNext = true) :
    s.params.Legal ∧ ∃ es, t = (s.setAgenda es).resetInput := by
  obtain ⟨hl, ⟨ha, -⟩ | ⟨q, es, ha, -⟩ | ⟨q, w, es, ha, -⟩ | ⟨bs, es, ha, -⟩ |
    ⟨ws, es, ha, -⟩ | ⟨es, -, ht⟩⟩ := step_cases h
  case inr.inr.inr.inr.inr => exact ⟨hl, es, ht⟩
  all_goals simp [State.resetNext, ha] at hr

/-- The induction step of every invariant: what each command keeps, the reset input establishes, and
the frames of the other events do not touch, is kept by every step. -/
theorem step_keeps_of_exec {P : State → Prop}
    (hexec : ∀ {i : Instr} {s t : State}, P s → exec i s = .next t → P t)
    (hreset : ∀ {s : State}, s.params.Legal → P s.resetInput)
    (houtside : ∀ {s t : State}, SameExcept outsideParts s t → P s → P t)
    (hraise : ∀ {s : State}, P s → P (s.raise .illop))
    {s t : State} (hs : P s) (h : step s = .next t) : P t := by
  cases hr : s.resetNext with
  | true =>
    obtain ⟨hl, es, rfl⟩ := step_of_resetNext h hr
    exact hreset hl
  | false =>
    obtain ⟨q, i, u, -, hu, ht⟩ | ht | ⟨u, hu, rfl⟩ := step_frames h hr
    · exact hexec (houtside hu hs) ht
    · exact houtside ht hs
    · exact hraise (houtside hu hs)

/-! ### The state invariants V1, V3, V4, V9 (R38) -/

/-- The parts of the state that `State.Inv` reads. -/
def invParts : List Part := [.params, .pend, .cfgValid, .nomFb, .fbEn, .est, .pbRun, .sync]

/-- A change outside these parts keeps the invariant. -/
theorem inv_of_sameExcept {l : List Part} {s t : State} (h : SameExcept l s t)
    (hl : ∀ x ∈ invParts, x ∉ l) (hi : s.Inv) : t.Inv := by
  have hsame : ∀ x ∈ invParts, x.Same s t := fun x hx => h x (hl x hx)
  simp only [invParts, List.forall_mem_cons, Part.Same] at hsame
  obtain ⟨h1, h2, h3, h4, h5, h6, h7, h8, -⟩ := hsame
  simpa only [State.Inv, State.carry, h1, h2, h3, h4, h5, h6, h7, h8] using hi

/-- A sample-group has bytes, so an empty carry is below the limit `W`. -/
theorem groupBytes_pos {p : Params} (h : p.Legal) : 0 < p.W := by
  obtain ⟨hw, -⟩ | ⟨hw, -⟩ := shape_of_legal h <;> omega

theorem inv_resetWith {p : Params} (hl : p.Legal) : (State.resetWith p).Inv :=
  ⟨hl, groupBytes_pos hl, by simp [State.resetWith], by simp [State.resetWith], fun _ => rfl,
    by simp [State.resetWith]⟩

theorem inv_syncset {s : State} (hi : s.Inv) (hv : s.cfgValid = true) :
    State.Inv { s with est := s.nomFb, fbEn := true, sync := true } := by
  obtain ⟨hl, hc, hn, -, hp, -⟩ := hi
  exact ⟨hl, hc, hn, fun _ => ⟨hv, hn hv⟩, hp, fun _ => hv⟩

/-- When CFGLD succeeds (R165). -/
theorem not_cfgldRefused_iff (s : State) : ¬ s.cfgldRefused = true ↔
    s.pbRun = false ∧ s.capRun = false ∧ s.params.FB_MIN ≤ s.shNomfb.toNat ∧
      s.shNomfb.toNat ≤ s.params.FB_MAX := by
  simp [cfgldRefused_iff]

theorem inv_cfgld {s : State} (hi : s.Inv) (hr : ¬ s.cfgldRefused = true) :
    State.Inv
      { s with rate := s.shRate, nframe := s.shNframe, nomFb := s.shNomfb, cfgValid := true } := by
  obtain ⟨hl, hc, -, hf, hp, -⟩ := hi
  obtain ⟨-, -, hbounds⟩ := (not_cfgldRefused_iff s).mp hr
  exact ⟨hl, hc, fun _ => hbounds, fun he => ⟨rfl, (hf he).2⟩, hp, fun _ => rfl⟩

theorem inv_syncclr {s : State} (hi : s.Inv) (b : Bool) :
    State.Inv { s with sync := false, fbEn := s.fbEn && b } := by
  obtain ⟨hl, hc, hn, hf, hp, -⟩ := hi
  exact ⟨hl, hc, hn, fun he => hf (Bool.and_eq_true_iff.mp he).1, hp, by simp⟩

/-- Dropping the pending bytes leaves PB_RUN free (R166, R167). -/
theorem inv_clearCarry {s : State} (hi : s.Inv) (b : Bool) :
    State.Inv { s.clearCarry with pbRun := b } := by
  obtain ⟨hl, -, hn, hf, -, hs⟩ := hi
  exact ⟨hl, groupBytes_pos hl, hn, hf, fun _ => rfl, hs⟩

/-- Fewer than `W` pending bytes, while playback runs, keep V1 and V4. -/
theorem inv_setPend {s : State} {bs : List Byte} (hi : s.Inv) (hr : s.pbRun = true)
    (hb : bs.length < s.params.W) : (s.setPend bs).Inv := by
  obtain ⟨hl, -, hn, hf, -, hs⟩ := hi
  exact ⟨hl, hb, hn, hf, fun h => by simp [hr] at h, hs⟩

/-- A step of the estimate from inside the bounds stays inside them (44_feedback.md R152). -/
theorem nextEst_bounds {s : State} (hl : s.params.Legal) (occ : Nat)
    (hlo : s.params.FB_MIN ≤ s.est.toNat) (hhi : s.est.toNat ≤ s.params.FB_MAX) :
    s.params.FB_MIN ≤ (s.nextEst occ).toNat ∧ (s.nextEst occ).toNat ≤ s.params.FB_MAX := by
  have hv := nextEst_toNat hl occ
  have hmm : s.params.FB_MIN ≤ s.params.FB_MAX := by
    obtain ⟨-, -, -, -, -, -, h, -⟩ := hl
    exact h
  unfold fbStepInt at hv
  split at hv
  · omega
  · split at hv <;> omega

theorem inv_tick {s : State} (hi : s.Inv) (he : s.fbEn = true) (occ : Nat) (bs : List Byte) :
    State.Inv { s with est := s.nextEst occ, fbOut := bs } := by
  obtain ⟨hl, hc, hn, hf, hp, hs⟩ := hi
  obtain ⟨hv, hlo, hhi⟩ := hf he
  exact ⟨hl, hc, hn, fun _ => ⟨hv, nextEst_bounds hl occ hlo hhi⟩, hp, hs⟩

theorem execPkt_keeps_inv {len : Nat} {s t : State} (hi : s.Inv)
    (h : execPkt len s = .next t) : t.Inv := by
  refine of_effect_ite h (execPkt_eq len s) (fun he => ?_) (fun _ => hi)
  simp only [pktEnabled, Bool.and_eq_true] at he
  obtain ⟨⟨-, hr⟩, -⟩ := he
  have hleft : (s.carry + len) % s.params.W < s.params.W :=
    Nat.mod_lt _ (groupBytes_pos hi.1)
  exact inv_setPend hi hr (lt_of_le_of_lt (List.length_take_le _ _) hleft)

/-- Every command keeps the invariants: the commands that write their parts by the lemmas above, the
others by their frame. -/
theorem exec_keeps_inv {i : Instr} {s t : State} (hi : s.Inv) (h : exec i s = .next t) : t.Inv := by
  have hframe := exec_frame h
  cases i with
  | syncclr => exact of_effect h rfl (inv_syncclr hi _)
  | syncset =>
    exact of_effect_ite h (execSyncset_eq s) (fun hv => inv_syncset hi hv) (fun _ => hi)
  | cfgld => exact of_effect_ite h (execCfgld_eq s) (fun _ => hi) (fun hr => inv_cfgld hi hr)
  | pstart | pstop => exact of_effect h rfl (inv_clearCarry hi _)
  | pkt len => exact execPkt_keeps_inv hi h
  | tick occ =>
    exact of_effect_ite h (execTick_eq occ s) (fun he => inv_tick hi he occ _) (fun _ => hi)
  | wr r v => exact inv_of_sameExcept hframe (by cases r <;> simp [invParts, writes]) hi
  | rd r => exact inv_of_sameExcept hframe (by cases r <;> decide) hi
  | nop | cstart | cstop | w2n _ | n2w _ | cap _ | fsize _ =>
    exact inv_of_sameExcept hframe (by simp [invParts, writes]) hi

/-- Settles O17: every command keeps the invariants, the reset input establishes them, and no other
event writes a part they read. -/
theorem stepKeepsInvariants : Obligations.StepKeepsInvariants := by
  intro s t hi h
  exact step_keeps_of_exec exec_keeps_inv inv_resetWith
    (fun hu => inv_of_sameExcept hu (by decide))
    (fun {s} => inv_of_sameExcept (sameExcept_raise_illop s) (by decide)) hi h

/-! ### The shapes of the histories (R37, R63, R91, R148) -/

/-- The parts of the state that `State.StreamInv` reads. -/
def streamParts : List Part :=
  [.params, .fbOut, .nativeOut, .wireOut, .rsp .f, .rsp .h, .rsp .p, .rsp .c]

/-- A change outside these parts keeps the shapes. -/
theorem streamInv_of_sameExcept {l : List Part} {s t : State} (h : SameExcept l s t)
    (hl : ∀ x ∈ streamParts, x ∉ l) (hi : s.StreamInv) : t.StreamInv := by
  have hsame : ∀ x ∈ streamParts, x.Same s t := fun x hx => h x (hl x hx)
  simp only [streamParts, List.forall_mem_cons, Part.Same, PerPort.get] at hsame
  obtain ⟨h1, h2, h3, h4, h5, h6, h7, h8, -⟩ := hsame
  simpa only [State.StreamInv, h1, h2, h3, h4, h5, h6, h7, h8] using hi

theorem streamInv_resetWith {p : Params} (hl : p.Legal) : (State.resetWith p).StreamInv :=
  ⟨hl, by simp [State.resetWith]⟩

/-- A 24-bit answer has a zero top byte (R91). -/
theorem zeroTop_setWidth (v : Reg) : zeroTop (v.setWidth 32) := by
  have hv : v.toNat / 2 ^ 24 = 0 := Nat.div_eq_of_lt v.isLt
  apply BitVec.eq_of_toNat_eq
  rw [toNat_extract, BitVec.toNat_setWidth_of_le (by decide), hv]
  rfl

theorem streamInv_respond {q : Port} {s : State} (hi : s.StreamInv) (hq : q ≠ .f) (v : Reg) :
    (s.respond q v).StreamInv := by
  obtain ⟨hl, hfb, hno, hwo, hf, hh, hp, hc⟩ := hi
  have happ : ∀ {l : List Word}, (∀ r ∈ l, zeroTop r) → ∀ r ∈ l ++ [v.setWidth 32], zeroTop r :=
    fun hr => List.forall_mem_append.mpr ⟨hr, by simpa using zeroTop_setWidth v⟩
  cases q with
  | h => exact ⟨hl, hfb, hno, hwo, hf, happ hh, hp, hc⟩
  | p => exact ⟨hl, hfb, hno, hwo, hf, hh, happ hp, hc⟩
  | c => exact ⟨hl, hfb, hno, hwo, hf, hh, hp, happ hc⟩
  | f => exact absurd rfl hq

theorem streamInv_pushNativeOut {s : State} (hi : s.StreamInv) {ws : List Word}
    (hw : s.params.CH ∣ ws.length) : (s.pushNativeOut ws).StreamInv := by
  obtain ⟨hl, hfb, hno, hrest⟩ := hi
  refine ⟨hl, hfb, ?_, hrest⟩
  rw [State.pushNativeOut_nativeOut, List.length_append]
  exact Nat.mod_eq_zero_of_dvd ((Nat.dvd_of_mod_eq_zero hno).add hw)

theorem streamInv_pushWireOut {s : State} (hi : s.StreamInv) {bs : List Byte}
    (hb : s.params.W ∣ bs.length) : (s.pushWireOut bs).StreamInv := by
  obtain ⟨hl, hfb, hno, hwo, hrest⟩ := hi
  refine ⟨hl, hfb, hno, ?_, hrest⟩
  rw [State.pushWireOut_wireOut, List.length_append]
  exact Nat.mod_eq_zero_of_dvd ((Nat.dvd_of_mod_eq_zero hwo).add hb)

/-- A published value is three whole bytes (R148). -/
theorem streamInv_pushFbOut {s : State} (hi : s.StreamInv) (v : Reg) :
    (s.pushFbOut (bytesOfReg v)).StreamInv := by
  obtain ⟨hl, hfb, hrest⟩ := hi
  refine ⟨hl, ?_, hrest⟩
  rw [State.pushFbOut_fbOut, List.length_append, bytesOfReg_length]
  omega

/-- `n` whole groups of wire bytes convert to whole groups of native words (R63). -/
theorem dvd_wireToNative_groups {p : Params} (hl : p.Legal) {bs : List Byte} {n : Nat}
    (hn : p.W * n ≤ bs.length) : p.CH ∣ (wireToNative (bs.take (p.W * n))).length := by
  rw [wireToNative_groups hl bs n hn, wordsAt_length]
  exact Nat.dvd_mul_right _ _

/-- `n` whole groups of native words convert to whole groups of wire bytes (R137). -/
theorem dvd_nativeToWire_groups {p : Params} (hl : p.Legal) {ws : List Word} {n : Nat}
    (hn : p.CH * n ≤ ws.length) : p.W ∣ (nativeToWire (ws.take (p.CH * n))).length := by
  rw [nativeToWire_length, List.length_take_of_le hn, ← groupBytes_of_legal hl]
  exact Nat.dvd_mul_right _ _

theorem execW2n_keeps_streamInv {n : Nat} {s t : State} (hi : s.StreamInv)
    (h : execW2n n s = .next t) : t.StreamInv := by
  refine of_effect_ite h (execW2n_eq n s) (fun he => ?_) (fun _ => hi)
  have hlen : s.params.W * n ≤ s.wireIn.length := by simpa [w2nEnabled] using he
  exact streamInv_pushNativeOut (s := (s.popWireIn _).2) hi (dvd_wireToNative_groups hi.1 hlen)

theorem execN2w_keeps_streamInv {n : Nat} {s t : State} (hi : s.StreamInv)
    (h : execN2w n s = .next t) : t.StreamInv := by
  refine of_effect_ite h (execN2w_eq n s) (fun he => ?_) (fun _ => hi)
  have hlen : s.params.CH * n ≤ s.nativeIn.length := by simpa [n2wEnabled] using he
  exact streamInv_pushWireOut (s := (s.popNativeIn _).2) hi (dvd_nativeToWire_groups hi.1 hlen)

theorem execCap_keeps_streamInv {occ : Nat} {s t : State} (hi : s.StreamInv)
    (h : execCap occ s = .next t) : t.StreamInv := by
  refine of_effect_ite h (execCap_eq occ s) (fun he => ?_) (fun _ => hi)
  simp only [capEnabled, Bool.and_eq_true, decide_eq_true_eq] at he
  obtain ⟨-, hlen⟩ := he
  have hpush := streamInv_pushWireOut (s := (s.popNativeIn (s.params.CH * s.frameSize occ)).2) hi
    (dvd_nativeToWire_groups hi.1 hlen)
  exact streamInv_respond hpush (q := .c) (by decide) _

/-- The groups that PKT cuts lie within the pending bytes and the packet (R121). -/
theorem groupsOf_le {len : Nat} {s : State} (hlen : len ≤ s.wireIn.length) :
    s.params.W * groupsOf len s ≤ (s.pend ++ s.wireIn.take len).length := by
  rw [List.length_append, List.length_take_of_le hlen]
  exact Nat.mul_div_le _ _

theorem execPkt_keeps_streamInv {len : Nat} {s t : State} (hi : s.StreamInv)
    (h : execPkt len s = .next t) : t.StreamInv := by
  refine of_effect_ite h (execPkt_eq len s) (fun he => ?_) (fun _ => hi)
  simp only [pktEnabled, Bool.and_eq_true, decide_eq_true_eq] at he
  obtain ⟨-, hlen⟩ := he
  have hpush := streamInv_pushNativeOut (s := (s.popWireIn len).2) hi
    (dvd_wireToNative_groups hi.1 (groupsOf_le hlen))
  exact streamInv_respond hpush (q := .p) (by decide) (BitVec.ofNat 24 (groupsOf len s))

theorem execTick_keeps_streamInv {occ : Nat} {s t : State} (hi : s.StreamInv)
    (h : execTick occ s = .next t) : t.StreamInv :=
  of_effect_ite h (execTick_eq occ s)
    (fun _ => streamInv_pushFbOut (s := { s with est := s.nextEst occ }) hi _) (fun _ => hi)

theorem execRd_keeps_streamInv {r : RegName} {s t : State} (hi : s.StreamInv)
    (h : execRd r s = .next t) : t.StreamInv :=
  of_effect h (execRd_eq r s) (streamInv_respond (q := .h) hi (by decide) (s.readReg r))

/-- Every command keeps the shapes: the commands that push or answer by the rules of those
operations, the others by their frame. -/
theorem exec_keeps_streamInv {i : Instr} {s t : State} (hi : s.StreamInv)
    (h : exec i s = .next t) : t.StreamInv := by
  have hframe := exec_frame h
  cases i with
  | rd r => exact execRd_keeps_streamInv hi h
  | w2n n => exact execW2n_keeps_streamInv hi h
  | n2w n => exact execN2w_keeps_streamInv hi h
  | pkt len => exact execPkt_keeps_streamInv hi h
  | cap occ => exact execCap_keeps_streamInv hi h
  | fsize occ => exact of_effect h rfl (streamInv_respond hi (by decide) _)
  | tick occ => exact execTick_keeps_streamInv hi h
  | wr r v => exact streamInv_of_sameExcept hframe (by cases r <;> simp [streamParts, writes]) hi
  | nop | syncclr | syncset | cfgld | pstart | pstop | cstart | cstop =>
    exact streamInv_of_sameExcept hframe (by decide) hi

/-- Settles O18: every command keeps the shapes, the reset input establishes them, and no other
event writes a part they read. -/
theorem stepKeepsStreamShapes : Obligations.StepKeepsStreamShapes := by
  intro s t hi h
  exact step_keeps_of_exec exec_keeps_streamInv streamInv_resetWith
    (fun hu => streamInv_of_sameExcept hu (by decide))
    (fun {s} => streamInv_of_sameExcept (sameExcept_raise_illop s) (by decide)) hi h

/-! ### What a step changes -/

/-- Outside reset, a part that the outside and ILLOP leave alone changes only in a command that names
it in its `State written` line. -/
theorem step_changes {s t : State} {x : Part} (h : step s = .next t) (hr : s.resetNext = false)
    (hx : ¬ x.Same s t) (hout : x ∉ .illop :: outsideParts) :
    ∃ q i u, s.running = some (q, i) ∧ x ∈ writes i ∧ SameExcept outsideParts s u ∧
      ¬ x.Same u t ∧ exec i u = .next t := by
  rw [List.mem_cons, not_or] at hout
  obtain ⟨hillop, hout⟩ := hout
  obtain ⟨q, i, u, hrun, hu, ht⟩ | ht | ⟨u, hu, rfl⟩ := step_frames h hr
  · have hxu : ¬ x.Same u t := fun hs => hx ((hu x hout).trans hs)
    exact ⟨q, i, u, hrun, by_contra fun hn => hxu (exec_frame ht x hn), hu, hxu, ht⟩
  · exact absurd (ht x hout) hx
  · exact absurd ((hu x hout).trans (sameExcept_raise_illop u x (by simpa using hillop))) hx

/-! ### ERR and CFG_VALID stay set (V2, R171) -/

/-- The parts of register ERR. -/
def errParts : List Part := [.illop, .illreg, .cfgerr, .seqerr]

theorem errWord_of_sameExcept {l : List Part} {s t : State} (h : SameExcept l s t)
    (hl : ∀ x ∈ errParts, x ∉ l) : t.errWord = s.errWord := by
  have hsame : ∀ x ∈ errParts, x.Same s t := fun x hx => h x (hl x hx)
  simp only [errParts, List.forall_mem_cons, Part.Same] at hsame
  obtain ⟨h1, h2, h3, h4, -⟩ := hsame
  rw [State.errWord, h1, h2, h3, h4, ← State.errWord]

/-- The number of an error bit in register ERR (R25). -/
def ErrorBit.code : ErrorBit → Nat
  | .illop => 0
  | .illreg => 1
  | .cfgerr => 2
  | .seqerr => 3

/-- Raising an error sets its bit of register ERR (60_exceptions.md R191). -/
theorem errWord_raise (e : ErrorBit) (s : State) :
    (s.raise e).errWord = s.errWord ||| (1#24 <<< e.code) := by
  simp only [State.errWord, State.raise_illop, State.raise_illreg, State.raise_cfgerr,
    State.raise_seqerr]
  generalize s.illop = a, s.illreg = b, s.cfgerr = c, s.seqerr = d
  cases e <;> revert a b c d <;> decide

/-- ERR in `t` is that of `s`, or that of `s` with one error raised. -/
def State.RaisesAtMostOne (s t : State) : Prop :=
  t.errWord = s.errWord ∨ ∃ e, t.errWord = (s.raise e).errWord

theorem raisesAtMostOne_writeReg (r : RegName) (v : Reg) (s : State) :
    s.RaisesAtMostOne (s.writeReg r v) := by
  cases r with
  | shRate | shNframe | shNomfb => exact .inl rfl
  | _ => exact .inr ⟨.illreg, rfl⟩

/-- A command leaves ERR as it is or raises one error (60_exceptions.md R197). -/
theorem exec_raisesAtMostOne {i : Instr} {s t : State} (h : exec i s = .next t) :
    s.RaisesAtMostOne t := by
  have hframe := exec_frame h
  cases i with
  | wr r v => exact of_effect h (execWr_eq r v s) (raisesAtMostOne_writeReg r v s)
  | rd r =>
    cases hr : isReserved r with
    | true =>
      refine .inr ⟨.illreg, ?_⟩
      rw [exec, execRd, hr] at h
      exact of_effect (P := fun t => t.errWord = _) h rfl rfl
    | false => exact .inl (errWord_of_sameExcept hframe (by simp [writes, hr, errParts]))
  | syncset =>
    exact of_effect_ite h (execSyncset_eq s) (fun _ => .inl rfl) (fun _ => .inr ⟨.seqerr, rfl⟩)
  | cfgld =>
    exact of_effect_ite h (execCfgld_eq s) (fun _ => .inr ⟨.cfgerr, rfl⟩) (fun _ => .inl rfl)
  | nop | syncclr | pstart | pstop | cstart | cstop | w2n _ | n2w _ | pkt _ | cap _ | fsize _
  | tick _ => exact .inl (errWord_of_sameExcept hframe (by simp [writes, errParts]))

/-- A step that is not the reset leaves ERR as it is or raises one error. -/
theorem step_raisesAtMostOne {s t : State} (h : step s = .next t) (hr : s.resetNext = false) :
    s.RaisesAtMostOne t := by
  have herr : ∀ {u : State}, SameExcept outsideParts s u → u.errWord = s.errWord :=
    fun hu => errWord_of_sameExcept hu (by decide)
  obtain ⟨q, i, u, -, hu, ht⟩ | ht | ⟨u, hu, rfl⟩ := step_frames h hr
  · simpa only [State.RaisesAtMostOne, errWord_raise, herr hu] using exec_raisesAtMostOne ht
  · exact .inl (herr ht)
  · exact .inr ⟨.illop, by rw [errWord_raise, errWord_raise, herr hu]⟩

/-- A set bit of ERR stays set when at most one more is raised. -/
theorem errWord_and_of_raisesAtMostOne {s t : State} (h : s.RaisesAtMostOne t) :
    s.errWord &&& t.errWord = s.errWord := by
  obtain h | ⟨e, h⟩ := h
  · rw [h, BitVec.and_self]
  · rw [h, errWord_raise]
    ext k hk
    simp +contextual

/-- What a successful CFGLD writes: the active configuration (R31 to R33) and CFG_VALID. -/
def configParts : List Part := [.rate, .nframe, .nomFb, .cfgValid]

theorem cfgld_of_mem_writes {i : Instr} {x : Part} (hx : x ∈ configParts) (h : x ∈ writes i) :
    i = .cfgld := by
  have hd : ∀ l : List Part, (∀ y ∈ configParts, y ∉ l) → x ∉ l := fun l hl => hl x hx
  cases i with
  | cfgld => rfl
  | wr r v => exact absurd h (hd _ (by cases r <;> simp [configParts, writes]))
  | rd r => exact absurd h (hd _ (by cases r <;> decide))
  | _ => exact absurd h (hd _ (by simp [configParts, writes]))

theorem execCfgld_keeps_cfgValid {s t : State} (h : execCfgld s = .next t)
    (hv : s.cfgValid = true) : t.cfgValid = true :=
  of_effect_ite (P := fun t => t.cfgValid = true) h (execCfgld_eq s) (fun _ => hv) (fun _ => rfl)

theorem step_keeps_cfgValid {s t : State} (h : step s = .next t) (hr : s.resetNext = false)
    (hv : s.cfgValid = true) : t.cfgValid = true := by
  by_contra hn
  have hne : ¬ Part.cfgValid.Same s t := fun hs => hn (Eq.trans hs hv)
  obtain ⟨q, i, u, -, hw, hu, -, ht⟩ := step_changes h hr hne (by decide)
  obtain rfl := cfgld_of_mem_writes (by decide) hw
  exact hn (execCfgld_keeps_cfgValid ht (Eq.trans (hu .cfgValid (by decide)) hv))

/-- Settles O19: a step that is not the reset raises at most one error, and only CFGLD writes
CFG_VALID, which it sets. -/
theorem errorBitsAndCfgValidStick : Obligations.ErrorBitsAndCfgValidStick := by
  intro s t h hr
  exact ⟨errWord_and_of_raisesAtMostOne (step_raisesAtMostOne h hr), step_keeps_cfgValid h hr⟩

/-! ### Who changes EST and the active configuration (V5, V6) -/

theorem est_mem_writes {i : Instr} (h : .est ∈ writes i) : i = .syncset ∨ ∃ occ, i = .tick occ := by
  cases i with
  | syncset => exact .inl rfl
  | tick occ => exact .inr ⟨occ, rfl⟩
  | wr r v => cases r <;> simp [writes] at h
  | rd r => cases r <;> simp [writes, isReserved] at h
  | _ => simp [writes] at h

theorem execSyncset_est {s t : State} (h : execSyncset s = .next t) (hne : t.est ≠ s.est) :
    s.cfgValid = true ∧ t.est = s.nomFb := by
  revert hne
  exact of_effect_ite (P := fun t => t.est ≠ s.est → _ ∧ t.est = s.nomFb) h (execSyncset_eq s)
    (fun hv _ => ⟨hv, rfl⟩) (fun _ hne => absurd rfl hne)

theorem execTick_est {occ : Nat} {s t : State} (h : execTick occ s = .next t)
    (hne : t.est ≠ s.est) : s.fbEn = true := by
  revert hne
  exact of_effect_ite (P := fun t => t.est ≠ s.est → _) h (execTick_eq occ s)
    (fun he _ => he) (fun _ hne => absurd rfl hne)

/-- Settles O21: only SYNCSET and TICK write EST; the one needs CFG_VALID, the other FB_EN. -/
theorem estChangesOnlyByTickOrSyncset : Obligations.EstChangesOnlyByTickOrSyncset := by
  intro s t h hr hne
  obtain ⟨q, i, u, hrun, hw, hu, hne, ht⟩ := step_changes (x := .est) h hr hne (by decide)
  have hport := (enabled_of_running hrun).2
  obtain rfl | ⟨occ, rfl⟩ := est_mem_writes hw
  · obtain rfl := List.mem_singleton.mp hport
    obtain ⟨hv, hnew⟩ := execSyncset_est ht hne
    exact .inr ⟨(hu .cfgValid (by decide)).symm.trans hv, hrun, hnew.trans (hu .nomFb (by decide))⟩
  · obtain rfl := List.mem_singleton.mp hport
    exact .inl ⟨(hu .fbEn (by decide)).symm.trans (execTick_est ht hne), occ, hrun⟩

/-- A CFGLD that changes the active configuration found both directions stopped (R165). -/
theorem execCfgld_config {s t : State} (h : execCfgld s = .next t)
    (hne : ∃ x ∈ configParts, ¬ x.Same s t) :
    s.pbRun = false ∧ s.capRun = false ∧
      t.rate = s.shRate ∧ t.nframe = s.shNframe ∧ t.nomFb = s.shNomfb := by
  revert hne
  refine of_effect_ite (P := fun t => (∃ x ∈ configParts, ¬ x.Same s t) → _ ∧ _ ∧
    t.rate = s.shRate ∧ t.nframe = s.shNframe ∧ t.nomFb = s.shNomfb) h (execCfgld_eq s) ?_ ?_
  · intro _ hne
    simp [configParts, Part.Same] at hne
  · intro hr _
    obtain ⟨hpb, hcap, -⟩ := (not_cfgldRefused_iff s).mp hr
    exact ⟨hpb, hcap, rfl, rfl, rfl⟩

/-- Settles O22: only CFGLD writes the active configuration, and only when it is not refused. -/
theorem configChangesOnlyByCfgldWhileStopped :
    Obligations.ConfigChangesOnlyByCfgldWhileStopped := by
  intro s t h hr hne
  obtain ⟨x, hx, hxne⟩ : ∃ x ∈ configParts, ¬ x.Same s t := by
    simp only [configParts, Part.Same, List.mem_cons, exists_eq_or_imp]
    exact hne.imp_right (Or.imp_right .inl)
  have hout : ∀ y ∈ configParts, y ∉ Part.illop :: outsideParts := by decide
  obtain ⟨q, i, u, hrun, hw, hu, hxne, ht⟩ := step_changes h hr hxne (hout x hx)
  obtain rfl := cfgld_of_mem_writes hx hw
  obtain rfl := List.mem_singleton.mp (enabled_of_running hrun).2
  have hstop := execCfgld_config ht ⟨x, hx, hxne⟩
  have hsame : ∀ y ∈ [Part.pbRun, .capRun, .shRate, .shNframe, .shNomfb], y.Same s u :=
    fun y hy => hu y (by revert y; decide)
  simp only [List.forall_mem_cons, Part.Same] at hsame
  obtain ⟨hpb, hcap, hrate, hnframe, hnomfb, -⟩ := hsame
  rw [hpb, hcap, hrate, hnframe, hnomfb] at hstop
  exact ⟨hrun, hstop⟩

/-! ### Who writes what (R39, R69, R204) -/

/-- What a command writes belongs to every port that may issue it. -/
theorem mem_portWrites {q : Port} {i : Instr} (hq : q.Allows i) :
    ∀ x ∈ writes i, x ∈ portWrites q := by
  cases i with
  | nop => simp [writes]
  | wr r v =>
    obtain rfl := List.mem_singleton.mp hq
    cases r <;> simp [writes, portWrites]
  | rd r =>
    obtain rfl := List.mem_singleton.mp hq
    cases r <;> decide
  | _ =>
    obtain rfl := List.mem_singleton.mp hq
    simp [writes, portWrites]

theorem illop_mem_portWrites (q : Port) : .illop ∈ portWrites q := by
  cases q <;> decide

/-- A turn of a port writes only what the port owns, and its queue. -/
theorem turn_frame {q : Port} {s t : State} (h : turn q s = .next t) :
    SameExcept (portWrites q ++ [.cmd q]) s t := by
  have hqueue : ∀ ws, SameExcept (portWrites q ++ [.cmd q]) s (s.setQueue q ws) :=
    fun ws => (sameExcept_setQueue q ws s).mono (by simp)
  obtain ⟨rfl, -⟩ | ⟨w, rest, e, -, -, rfl⟩ | ⟨w, rest, i, -, hd, -, hexec⟩ := turn_cases h
  · exact .refl _ _
  · exact (hqueue rest).trans
      ((sameExcept_raise_illop _).mono (by simp [illop_mem_portWrites]))
  · have hsub := mem_portWrites (allows_of_decodeOn hd).1
    exact (hqueue rest).trans
      ((exec_frame hexec).mono fun x hx => List.mem_append_left _ (hsub x hx))

/-- A step that gives a port its turn is that turn. -/
theorem turn_of_step {q : Port} {s t : State} {es : List Event} (ha : s.agenda = .turn q :: es)
    (h : step s = .next t) : turn q (s.setAgenda es) = .next t := by
  rwa [step_of_legal (step_cases h).1 ha] at h

/-- Settles O26: a turn writes what its port owns, and the step takes the turn off the agenda. -/
theorem portWritesOnlyItsOwnState : Obligations.PortWritesOnlyItsOwnState := by
  intro q s t es ha h
  have hagenda := (sameExcept_setAgenda es s).mono (l' := (portWrites q ++ [.cmd q]) ++ [.agenda])
    fun _ => List.mem_append_right _
  have hturn := (turn_frame (turn_of_step ha h)).mono fun _ => List.mem_append_left [Part.agenda]
  simpa using hagenda.trans hturn

/-! ### Turns of two data ports commute (R39, R65, R69) -/

/-- States that agree in every part are equal. -/
theorem eq_of_same {s t : State} (h : ∀ x : Part, x.Same s t) : t = s := by
  have hcmd : t.cmd = s.cmd := PerPort.ext_get fun q => h (.cmd q)
  have hrsp : t.rsp = s.rsp := PerPort.ext_get fun q => h (.rsp q)
  cases s
  cases t
  simp only [State.mk.injEq]
  exact ⟨h .params, h .sync, h .fbEn, h .pbRun, h .capRun, h .cfgValid, h .illop, h .illreg,
    h .cfgerr, h .seqerr, h .pend, h .est, h .rate, h .nframe, h .nomFb, h .shRate, h .shNframe,
    h .shNomfb, h .wireIn, h .nativeIn, h .nativeOut, h .wireOut, h .fbOut, hcmd, hrsp, h .agenda⟩

/-- `s` after what data port `q` did in `u`: the queue, the responses and the data parts of `q` are
those of `u`, and an ILLOP raised in `u` is raised. -/
def State.withPortOf (s : State) (q : Port) (u : State) : State :=
  let s' := { s with
    illop := s.illop || u.illop
    cmd := s.cmd.set q (u.cmd.get q)
    rsp := s.rsp.set q (u.rsp.get q) }
  match q with
  | .h => s'
  | .p => { s' with pend := u.pend, wireIn := u.wireIn, nativeOut := u.nativeOut }
  | .c => { s' with nativeIn := u.nativeIn, wireOut := u.wireOut }
  | .f => { s' with est := u.est, fbOut := u.fbOut }

theorem withPortOf_comm {q q' : Port} (hne : q ≠ q') (s u v : State) :
    (s.withPortOf q u).withPortOf q' v = (s.withPortOf q' v).withPortOf q u := by
  cases q <;> cases q' <;>
    simp_all [State.withPortOf, PerPort.set, Bool.or_comm, Bool.or_left_comm, PerPort.get]

@[simp] theorem withPortOf_cmd (s u : State) (q : Port) :
    (s.withPortOf q u).cmd = s.cmd.set q (u.cmd.get q) := by cases q <;> rfl

@[simp] theorem withPortOf_rsp (s u : State) (q : Port) :
    (s.withPortOf q u).rsp = s.rsp.set q (u.rsp.get q) := by cases q <;> rfl

theorem setQueue_withPortOf {q q' : Port} (hne : q ≠ q') (s u : State) (ws : List Word) :
    (s.withPortOf q' u).setQueue q ws = (s.setQueue q ws).withPortOf q' u := by
  cases q' <;> simp [State.withPortOf, State.setQueue, PerPort.set_comm _ hne]

theorem raise_illop_withPortOf (s u : State) (q : Port) :
    (s.withPortOf q u).raise .illop = (s.raise .illop).withPortOf q u := by
  cases q <;> simp [State.withPortOf, State.raise]

/-- A command whose effect `f` commutes with `g` does the same after `g`. -/
theorem exec_comm_of_effect {i : Instr} {f g : State → State} {s t : State}
    (h : exec i s = .next t) (hexec : ∀ s, exec i s = .next (f s)) (hcomm : f (g s) = g (f s)) :
    exec i (g s) = .next (g t) := by
  rw [hexec, hcomm]
  exact of_effect (P := fun t => _ = Outcome.next (g t)) h (hexec s) rfl

/-- A conditional effect commutes with `g` when `g` does not change the condition and both branches
commute. -/
theorem ite_comm_of_same {g : State → State} {c c' : Bool} {u u' v v' : State} (hc : c' = c)
    (hu : u' = g u) (hv : v' = g v) : (if c' then u' else v') = g (if c then u else v) := by
  rw [hc, hu, hv, apply_ite g]

/-- Whether a data port's head is enabled does not depend on what another port did (R67, R69). -/
theorem enabled_withPortOf {q q' : Port} (hq : q ≠ .h) (hne : q ≠ q') (s u : State) {i : Instr}
    (hi : q.Allows i) : enabled i (s.withPortOf q' u) = enabled i s := by
  cases i with
  | nop => rfl
  | w2n _ | pkt _ =>
    obtain rfl := List.mem_singleton.mp hi
    cases q' with
    | p => exact absurd rfl hne
    | h | c | f => rfl
  | n2w _ | cap _ =>
    obtain rfl := List.mem_singleton.mp hi
    cases q' with
    | c => exact absurd rfl hne
    | h | p | f => rfl
  | fsize _ | tick _ => rfl
  | _ => exact absurd (List.mem_singleton.mp hi) hq

/-- A data port's command does the same after what another port did. -/
theorem exec_withPortOf {q q' : Port} (hq : q ≠ .h) (hne : q ≠ q') {s t : State} (u : State)
    {i : Instr} (hi : q.Allows i) (h : exec i s = .next t) :
    exec i (s.withPortOf q' u) = .next (t.withPortOf q' u) := by
  have hcomm {f : State → State} (hexec : ∀ s, exec i s = .next (f s))
      (hf : f (s.withPortOf q' u) = (f s).withPortOf q' u) :
      exec i (s.withPortOf q' u) = .next (t.withPortOf q' u) :=
    exec_comm_of_effect (g := fun s => s.withPortOf q' u) h hexec hf
  have hen := enabled_withPortOf hq hne s u hi
  cases i with
  | nop => exact hcomm (fun _ => rfl) rfl
  | w2n n =>
    refine hcomm (execW2n_eq n) ?_
    obtain rfl := List.mem_singleton.mp hi
    cases q' with
    | p => exact absurd rfl hne
    | h | c | f => exact ite_comm_of_same (g := fun s => s.withPortOf _ u) hen rfl rfl
  | pkt len =>
    refine hcomm (execPkt_eq len) ?_
    obtain rfl := List.mem_singleton.mp hi
    cases q' with
    | p => exact absurd rfl hne
    | h | c | f => exact ite_comm_of_same (g := fun s => s.withPortOf _ u) hen rfl rfl
  | n2w n =>
    refine hcomm (execN2w_eq n) ?_
    obtain rfl := List.mem_singleton.mp hi
    cases q' with
    | c => exact absurd rfl hne
    | h | p | f => exact ite_comm_of_same (g := fun s => s.withPortOf _ u) hen rfl rfl
  | cap occ =>
    refine hcomm (execCap_eq occ) ?_
    obtain rfl := List.mem_singleton.mp hi
    cases q' with
    | c => exact absurd rfl hne
    | h | p | f => exact ite_comm_of_same (g := fun s => s.withPortOf _ u) hen rfl rfl
  | fsize occ =>
    refine hcomm (execFsize_eq occ) ?_
    obtain rfl := List.mem_singleton.mp hi
    cases q' with
    | c => exact absurd rfl hne
    | h | p | f => rfl
  | tick occ =>
    refine hcomm (execTick_eq occ) ?_
    obtain rfl := List.mem_singleton.mp hi
    cases q' with
    | f => exact absurd rfl hne
    | h | p | c => exact ite_comm_of_same (g := fun s => s.withPortOf _ u) rfl rfl rfl
  | _ => exact absurd (List.mem_singleton.mp hi) hq

/-- A data port's turn does the same after what another port did (R69). -/
theorem turn_withPortOf {q q' : Port} (hq : q ≠ .h) (hne : q ≠ q') {s t : State} (u : State)
    (h : turn q s = .next t) : turn q (s.withPortOf q' u) = .next (t.withPortOf q' u) := by
  have hcmd : (s.withPortOf q' u).cmd.get q = s.cmd.get q := by simp [hne]
  obtain ⟨rfl, hidle | hheld⟩ | ⟨w, rest, e, hc, hd, rfl⟩ | ⟨w, rest, i, hc, hd, hen, hexec⟩ :=
    turn_cases h
  · exact turn_idle (hcmd.trans hidle)
  · obtain ⟨w, rest, i, hc, hd, hen⟩ := takeHead_held.mp hheld
    have hi := (allows_of_decodeOn hd).1
    exact turn_held (takeHead_held.mpr
      ⟨w, rest, i, hcmd.trans hc, hd, (enabled_withPortOf hq hne t u hi).trans hen⟩)
  · rw [turn_rejected (hcmd.trans hc) hd, setQueue_withPortOf hne, raise_illop_withPortOf]
  · have hi := (allows_of_decodeOn hd).1
    rw [turn_run (hcmd.trans hc) hd ((enabled_withPortOf hq hne s u hi).trans hen),
      setQueue_withPortOf hne]
    exact exec_withPortOf hq hne u hi hexec

/-- ILLOP stays set over a turn. -/
theorem turn_keeps_illop {q : Port} {s t : State} (h : turn q s = .next t)
    (hs : s.illop = true) : t.illop = true := by
  obtain ⟨rfl, -⟩ | ⟨w, rest, e, -, -, rfl⟩ | ⟨w, rest, i, -, -, -, hexec⟩ := turn_cases h
  · exact hs
  · simp
  · have hw : Part.illop ∉ writes i := by
      cases i with
      | wr r v => cases r <;> simp [writes]
      | rd r => cases r <;> decide
      | _ => simp [writes]
    exact Eq.trans (exec_frame hexec .illop hw) hs

/-- Two families that agree at `q'`, unless that is `q`, agree there after copying the item of `q`. -/
theorem PerPort.get_eq_get_set {α : Type} {x y : PerPort α} {q q' : Port}
    (h : q' ≠ q → y.get q' = x.get q') : y.get q' = (x.set q (y.get q)).get q' := by
  by_cases hq : q' = q <;> simp_all

/-- A data port's turn does what `withPortOf` copies, and nothing else. -/
theorem turn_eq_withPortOf {q : Port} (hq : q ≠ .h) {s t : State} (h : turn q s = .next t) :
    t = s.withPortOf q t := by
  have hillop : s.illop = true → t.illop = true := turn_keeps_illop h
  refine eq_of_same fun x => ?_
  have hframe := turn_frame h x
  cases x with
  | cmd q' =>
    rw [Part.Same, withPortOf_cmd]
    refine PerPort.get_eq_get_set fun hne => hframe ?_
    cases q <;> simp_all [portWrites]
  | rsp q' =>
    rw [Part.Same, withPortOf_rsp]
    refine PerPort.get_eq_get_set fun hne => hframe ?_
    cases q <;> simp_all [portWrites]
  | illop => cases q <;> simpa [Part.Same, State.withPortOf] using hillop
  | _ => cases q <;> simp_all [Part.Same, State.withPortOf, portWrites]

/-- The events to come play no part in a turn. -/
theorem exec_setAgenda (es : List Event) {i : Instr} {s t : State} (h : exec i s = .next t) :
    exec i (s.setAgenda es) = .next (t.setAgenda es) := by
  have hcomm {f : State → State} (hexec : ∀ s, exec i s = .next (f s))
      (hf : f (s.setAgenda es) = (f s).setAgenda es) :
      exec i (s.setAgenda es) = .next (t.setAgenda es) :=
    exec_comm_of_effect (g := .setAgenda es) h hexec hf
  have hen := enabled_setAgenda i es s
  cases i with
  | wr r v => exact hcomm (execWr_eq r v) (by cases r <;> rfl)
  | rd r => exact hcomm (execRd_eq r) (by cases r <;> rfl)
  | syncset => exact hcomm execSyncset_eq (ite_comm_of_same rfl rfl rfl)
  | cfgld => exact hcomm execCfgld_eq (ite_comm_of_same rfl rfl rfl)
  | w2n n => exact hcomm (execW2n_eq n) (ite_comm_of_same hen rfl rfl)
  | n2w n => exact hcomm (execN2w_eq n) (ite_comm_of_same hen rfl rfl)
  | pkt len => exact hcomm (execPkt_eq len) (ite_comm_of_same hen rfl rfl)
  | cap occ => exact hcomm (execCap_eq occ) (ite_comm_of_same hen rfl rfl)
  | tick occ => exact hcomm (execTick_eq occ) (ite_comm_of_same rfl rfl rfl)
  | nop | syncclr | pstart | pstop | cstart | cstop | fsize _ => exact hcomm (fun _ => rfl) rfl

theorem raise_setAgenda (e : ErrorBit) (es : List Event) (s : State) :
    (s.setAgenda es).raise e = (s.raise e).setAgenda es := by
  cases e <;> rfl

theorem turn_setAgenda (es : List Event) {q : Port} {s t : State} (h : turn q s = .next t) :
    turn q (s.setAgenda es) = .next (t.setAgenda es) := by
  obtain ⟨rfl, hidle | hheld⟩ | ⟨w, rest, e, hc, hd, rfl⟩ | ⟨w, rest, i, hc, hd, hen, hexec⟩ :=
    turn_cases h
  · exact turn_idle hidle
  · obtain ⟨w, rest, i, hc, hd, hen⟩ := takeHead_held.mp hheld
    exact turn_held (takeHead_held.mpr ⟨w, rest, i, hc, hd, by simpa using hen⟩)
  · rw [← raise_setAgenda]
    exact turn_rejected (s := s.setAgenda es) hc hd
  · exact (turn_run (s := s.setAgenda es) hc hd (by simpa using hen)).trans
      (exec_setAgenda es hexec)

theorem turn_keeps_params {q : Port} {s t : State} (h : turn q s = .next t) :
    t.params = s.params :=
  turn_frame h .params (by cases q <;> decide)

theorem turn_keeps_agenda {q : Port} {s t : State} (h : turn q s = .next t) :
    t.agenda = s.agenda :=
  turn_frame h .agenda (by cases q <;> decide)

/-- The step that gives a port its turn. -/
theorem step_turn {q : Port} {s t : State} (es : List Event) (hl : s.params.Legal)
    (h : turn q s = .next t) : step (s.setAgenda (.turn q :: es)) = .next (t.setAgenda es) := by
  have hturn := turn_setAgenda es h
  exact (step_of_legal (s := s.setAgenda (.turn q :: es)) hl rfl).trans hturn

/-- Two turns in a row. -/
theorem runSteps_two_turns {q q' : Port} {s t u : State} (es : List Event) (hl : s.params.Legal)
    (h : turn q s = .next t) (h' : turn q' t = .next u) :
    runSteps 2 (s.setAgenda (.turn q :: .turn q' :: es)) = .next (u.setAgenda es) := by
  have hl' : t.params.Legal := turn_keeps_params h ▸ hl
  rw [runSteps_next (step_turn _ hl h), runSteps_next (step_turn es hl' h'), runSteps_zero]

/-- Illegal parameters are refused, whatever the agenda (70_reset_and_hazards.md R224). -/
theorem runSteps_refused {s : State} (hl : ¬ s.params.Legal) (n : Nat) :
    runSteps (n + 1) s = .refused .illegalParameters := by
  simp only [runSteps, step, if_neg hl]

/-- Settles O27: each of the two turns does the same before and after the other one, and what they do
lies in different parts. -/
theorem dataPortsCommute : Obligations.DataPortsCommute := by
  intro q q' s es hq hq' hne
  by_cases hl : s.params.Legal
  · obtain ⟨t, ht⟩ := turn_next q s
    obtain ⟨t', ht'⟩ := turn_next q' s
    have heq := turn_eq_withPortOf hq ht
    have heq' := turn_eq_withPortOf hq' ht'
    have hsecond : turn q' t = .next (t'.withPortOf q t) := by
      simpa only [← heq] using turn_withPortOf hq' hne.symm t ht'
    have hsecond' : turn q t' = .next (t.withPortOf q' t') := by
      simpa only [← heq'] using turn_withPortOf hq hne t' ht
    have hsame : t'.withPortOf q t = t.withPortOf q' t' :=
      calc t'.withPortOf q t = (s.withPortOf q' t').withPortOf q t := by rw [← heq']
        _ = (s.withPortOf q t).withPortOf q' t' := withPortOf_comm hne.symm s t' t
        _ = t.withPortOf q' t' := by rw [← heq]
    rw [hsame] at hsecond
    exact (runSteps_two_turns es hl ht hsecond).trans (runSteps_two_turns es hl ht' hsecond').symm
  · have hrefused (es' : List Event) : runSteps 2 (s.setAgenda es') = .refused .illegalParameters :=
      runSteps_refused (s := s.setAgenda es') hl 1
    exact (hrefused _).trans (hrefused _).symm

/-! ### What the registers read as (R24 to R35, R42) -/

theorem statusWord_toNat (s : State) : s.statusWord.toNat = s.sync.toNat + 2 * s.fbEn.toNat +
    4 * s.pbRun.toNat + 8 * s.capRun.toNat + 16 * s.cfgValid.toNat := by
  simp only [State.statusWord, toNat_append_add, BitVec.toNat_ofBool, BitVec.toNat_ofNat]
  omega

theorem errWord_toNat (s : State) : s.errWord.toNat = s.illop.toNat + 2 * s.illreg.toNat +
    4 * s.cfgerr.toNat + 8 * s.seqerr.toNat := by
  simp only [State.errWord, toNat_append_add, BitVec.toNat_ofBool, BitVec.toNat_ofNat]
  omega

/-- In a state that meets the invariants register CARRY shows the whole carry. -/
theorem carryWord_toNat_of_inv {s : State} (hi : s.Inv) : s.carryWord.toNat = s.pend.length := by
  obtain ⟨hl, hc, -⟩ := hi
  rw [carryWord_toNat]
  unfold State.carry at hc ⊢
  obtain ⟨hw, -⟩ | ⟨hw, -⟩ := shape_of_legal hl <;> omega

theorem readReg_reserved {r : RegName} (hr : 10 < (numberOfReg r).toNat) (s : State) :
    s.readReg r = 0 := by
  cases r with
  | r11 | r12 | r13 | r14 | r15 => rfl
  | _ => exact absurd hr (by decide)

theorem errOut_iff (s : State) : s.errOut = true ↔ s.readReg .err ≠ 0 := by
  simp [State.errOut, State.readReg]

/-- Settles O34: STATUS, ERR and CARRY by their bit fields, the other registers by their own cells. -/
theorem registerLayouts : Obligations.RegisterLayouts := by
  intro s
  have hcarry : (s.readReg .carry).toNat < 8 := by
    rw [State.readReg, carryWord_toNat]
    exact Nat.mod_lt _ (by decide)
  exact ⟨statusWord_toNat s, errWord_toNat s, carryWord_toNat_of_inv, hcarry, rfl, rfl, rfl, rfl,
    rfl, rfl, rfl, rfl, fun _ hr => readReg_reserved hr s, errOut_iff s⟩

/-! ### What comes from the outside (R36, R37) and reset (R40, R220) -/

theorem sameExcept_issue (q : Port) (w : Word) (s : State) :
    SameExcept [.cmd q] s (s.issue q w) :=
  sameExcept_setQueue q _ s

theorem sameExcept_feedWireIn (bs : List Byte) (s : State) :
    SameExcept [.wireIn] s (s.feedWireIn bs) := by
  intro x hx
  cases x <;> simp_all [Part.Same]

theorem sameExcept_feedNativeIn (ws : List Word) (s : State) :
    SameExcept [.nativeIn] s (s.feedNativeIn ws) := by
  intro x hx
  cases x <;> simp_all [Part.Same]

/-- An event that writes the part `x`, taken off the agenda. -/
theorem sameExcept_after_setAgenda {x : Part} {es : List Event} {s t : State}
    (h : SameExcept [x] (s.setAgenda es) t) : SameExcept [x, .agenda] s t :=
  ((sameExcept_setAgenda es s).mono (by simp)).trans (h.mono (by simp))

/-- Settles O13: each event of the outside is one append, after the event leaves the agenda. -/
theorem outsideAppends : Obligations.OutsideAppends := by
  intro s es hl
  refine ⟨fun q w ha => ?_, fun bs ha => ?_, fun ws ha => ?_⟩
  · exact ⟨_, step_of_legal hl ha, sameExcept_after_setAgenda (sameExcept_issue q w _),
      PerPort.get_set_self _ q _, rfl⟩
  · exact ⟨_, step_of_legal hl ha, sameExcept_after_setAgenda (sameExcept_feedWireIn bs _), rfl, rfl⟩
  · exact ⟨_, step_of_legal hl ha, sameExcept_after_setAgenda (sameExcept_feedNativeIn ws _), rfl, rfl⟩

theorem statusWord_resetInput (s : State) : s.resetInput.statusWord = 0 := by
  simp [State.statusWord]

theorem errWord_resetInput (s : State) : s.resetInput.errWord = 0 := by
  simp [State.errWord]

theorem carryWord_resetInput (s : State) : s.resetInput.carryWord = 0 := by
  simp [State.carryWord, State.carry]

/-- After the reset input every register but the identity constant reads as 0 (R40). -/
theorem readReg_resetInput {r : RegName} (hr : r ≠ .id) (s : State) :
    s.resetInput.readReg r = 0 := by
  cases r with
  | id => exact absurd rfl hr
  | status => exact statusWord_resetInput s
  | err => exact errWord_resetInput s
  | carry => exact carryWord_resetInput s
  | _ => rfl

theorem errOut_resetInput (s : State) : s.resetInput.errOut = false := by
  rw [State.errOut, errWord_resetInput]
  rfl

/-- Settles O15: the step is the reset input, whose fields are the reset values. -/
theorem resetEvent : Obligations.ResetEvent := by
  intro s es hl ha
  refine ⟨_, step_of_legal hl ha, rfl, rfl, rfl, fun r hr => readReg_resetInput hr _, rfl, rfl, rfl,
    rfl, rfl, rfl, fun q => ?_, errOut_resetInput _⟩
  cases q <;> exact ⟨rfl, rfl⟩

/-- Settles O16: the reset state meets both invariants, with ERR zero. -/
theorem resetMeetsInvariants : Obligations.ResetMeetsInvariants :=
  ⟨fun p hl => ⟨inv_resetWith hl, streamInv_resetWith hl, errWord_resetInput (.resetWith p)⟩, rfl,
    by decide⟩

end Sys2Proof.Machine

/-! ## Proofs: the queues and the gate of 20_memory.md -/

namespace Sys2Proof.Machine

open Host (Outcome)

/-! ### Words on a byte link (R56, R58) -/

/-- A word is its four bytes in base 256, least significant first. -/
theorem word_toNat_eq_bytes (w : Word) :
    w.toNat = (w.extractLsb' 0 8).toNat + 2 ^ 8 * (w.extractLsb' 8 8).toNat +
      2 ^ 16 * (w.extractLsb' 16 8).toNat + 2 ^ 24 * (w.extractLsb' 24 8).toNat := by
  have hw := w.isLt
  simp only [toNat_extract]
  omega

theorem wordOfBytes_toNat (b0 b1 b2 b3 : Byte) :
    (wordOfBytes b0 b1 b2 b3).toNat =
      b0.toNat + 2 ^ 8 * b1.toNat + 2 ^ 16 * b2.toNat + 2 ^ 24 * b3.toNat := by
  simp only [wordOfBytes, toNat_append_add]
  omega

/-- Putting the four bytes of a word together gives the word back. -/
theorem wordOfBytes_extract (w : Word) :
    wordOfBytes (w.extractLsb' 0 8) (w.extractLsb' 8 8) (w.extractLsb' 16 8)
      (w.extractLsb' 24 8) = w := by
  apply BitVec.eq_of_toNat_eq
  rw [wordOfBytes_toNat, ← word_toNat_eq_bytes]

/-- Cutting a word into bytes gives the bytes it was put together from. -/
theorem bytesOfWord_wordOfBytes (b0 b1 b2 b3 : Byte) :
    bytesOfWord (wordOfBytes b0 b1 b2 b3) = [b0, b1, b2, b3] := by
  simp only [bytesOfWord, List.cons.injEq, and_true]
  refine ⟨?_, ?_, ?_, ?_⟩
  all_goals
    apply BitVec.eq_of_toNat_eq
    rw [toNat_extract, wordOfBytes_toNat]
    omega

/-- Settles O9: cutting a word and putting it together undo each other, and a native word is put
together from the padding byte and its three bytes. -/
theorem wordsOnAByteLink : Obligations.WordsOnAByteLink :=
  ⟨fun w => ⟨_, _, _, _, rfl, wordOfBytes_extract w, word_toNat_eq_bytes w⟩,
    bytesOfWord_wordOfBytes 0⟩

/-! ### A turn's step (R64, R66, R67) -/

/-- Settles O10: the step is the port's turn, and the turn runs the enabled head. -/
theorem stepRunsTheDecodedCommand : Obligations.StepRunsTheDecodedCommand := by
  intro q s w rest es i hl ha hc hd he
  rw [step_of_legal hl ha]
  exact turn_run (s := s.setAgenda es) hc hd (by simpa using he)

theorem waitsForData_of_not_enabled {i : Instr} {s : State} (h : enabled i s = false) :
    ∃ n, i = .pkt n ∨ i = .cap n ∨ i = .w2n n ∨ i = .n2w n := by
  cases i with
  | pkt n | cap n | w2n n | n2w n => exact ⟨n, by simp⟩
  | _ => simp [enabled] at h

/-- A conditional effect whose condition fails is that of its other branch. -/
theorem effect_of_false {e : Outcome State Fault Refusal} {c : Bool} {u v : State}
    (heff : e = .next (if c then u else v)) (hc : c = false) : e = .next v := by
  rw [heff, hc, if_neg Bool.false_ne_true]

/-- A held command has no effect (log entry 6). -/
theorem exec_of_not_enabled {i : Instr} {s : State} (h : enabled i s = false) :
    exec i s = .next s := by
  obtain ⟨n, rfl | rfl | rfl | rfl⟩ := waitsForData_of_not_enabled h
  · exact effect_of_false (execPkt_eq n s) h
  · exact effect_of_false (execCap_eq n s) h
  · exact effect_of_false (execW2n_eq n s) h
  · exact effect_of_false (execN2w_eq n s) h

/-- Whether a head is held does not depend on the events to come. -/
theorem takeHead_setAgenda_held {q : Port} {es : List Event} {s : State} :
    takeHead q (s.setAgenda es) = .held ↔ takeHead q s = .held := by
  simp only [takeHead_held, State.setAgenda_cmd, enabled_setAgenda]

/-- The step that gives a port with a held head its turn takes the turn off the agenda, no more. -/
theorem step_of_held {q : Port} {s : State} {es : List Event} (hl : s.params.Legal)
    (ha : s.agenda = .turn q :: es) (hh : takeHead q s = .held) :
    step s = .next (s.setAgenda es) :=
  (step_of_legal hl ha).trans (turn_held (takeHead_setAgenda_held.mpr hh))

/-- Settles O11: only the four data commands have a condition, and both their meaning and the step
leave the state as it is where the condition fails. -/
theorem heldCommandWaits : Obligations.HeldCommandWaits :=
  ⟨fun _ _ h => ⟨waitsForData_of_not_enabled h, exec_of_not_enabled h⟩,
    fun _ _ w rest _ i hl ha hc hd he =>
      step_of_held hl ha (takeHead_held.mpr ⟨w, rest, i, hc, hd, he⟩)⟩

/-! ### The queues (R66) -/

/-- A turn takes the head word of its port's queue, unless the queue is empty or its head is held. -/
theorem turn_queue {q : Port} {s t : State} (h : turn q s = .next t) :
    (∃ w, s.cmd.get q = w :: t.cmd.get q ∧ takeHead q s ≠ .held) ∨
      (t.cmd.get q = s.cmd.get q ∧ (takeHead q s = .held ∨ s.cmd.get q = [])) := by
  obtain ⟨rfl, hwait⟩ | ⟨w, rest, e, hc, hd, rfl⟩ | ⟨w, rest, i, hc, hd, he, hexec⟩ := turn_cases h
  · exact .inr ⟨rfl, hwait.symm⟩
  · have htake : takeHead q s = .rejected _ := takeHead_rejected.mpr ⟨w, rest, e, hc, hd, rfl⟩
    exact .inl ⟨w, by simpa using hc, by simp [htake]⟩
  · have htake : takeHead q s = .run i _ := takeHead_run.mpr ⟨w, rest, hc, hd, he, rfl⟩
    obtain ⟨hcmd, -, -⟩ := exec_keeps hexec
    exact .inl ⟨w, by simpa [hcmd] using hc, by simp [htake]⟩

theorem turn_keeps_other_queue {q q' : Port} (hne : q' ≠ q) {s t : State}
    (h : turn q s = .next t) : t.cmd.get q' = s.cmd.get q' :=
  turn_frame h (.cmd q') (by cases q <;> simp [portWrites, hne])

/-- Settles O12: a turn takes the head or nothing, an issued word joins the end, and the step that
runs a head has set only its own port's queue. -/
theorem queueInIssueOrder : Obligations.QueueInIssueOrder := by
  refine ⟨fun q s t es ha h => ?_, fun q s w es hl ha => ?_,
    fun q q' s w rest es i hl hne _ ha hc hd he => ?_⟩
  · have hturn := turn_of_step ha h
    exact ⟨fun q' hne => turn_keeps_other_queue (s := s.setAgenda es) hne hturn,
      (turn_queue hturn).imp
        (fun ⟨w, hc, hh⟩ => ⟨w, hc, fun hs => hh (takeHead_setAgenda_held.mpr hs)⟩)
        (And.imp_right (Or.imp_left takeHead_setAgenda_held.mp))⟩
  · obtain ⟨happend, -, -⟩ := outsideAppends s es hl
    obtain ⟨t, ht, hframe, hcmd, -⟩ := happend q w ha
    exact ⟨t, ht, hcmd, fun q' hne => hframe (.cmd q') (by simp [hne])⟩
  · obtain ⟨t, ht⟩ := exec_next i { s with agenda := es, cmd := s.cmd.set q' rest }
    obtain ⟨hcmd, -, -⟩ := exec_keeps ht
    refine ⟨t, (stepRunsTheDecodedCommand q' s w rest es i hl ha hc hd he).trans ht, ?_, ?_⟩
    · rw [hcmd, PerPort.get_set_self]
    · rw [hcmd, PerPort.get_set_of_ne _ hne]

theorem turn_queue_subset {q q' : Port} {s t : State} (h : turn q s = .next t) :
    t.cmd.get q' ⊆ s.cmd.get q' := by
  by_cases hq : q' = q
  · subst hq
    obtain ⟨w, hc, -⟩ | ⟨hc, -⟩ := turn_queue h
    · rw [hc]
      exact List.subset_cons_self w _
    · rw [hc]
      exact List.Subset.refl _
  · rw [turn_keeps_other_queue hq h]
    exact List.Subset.refl _

/-- Words come into a queue only by being issued on its port. -/
theorem mem_queue_of_step {q : Port} {w : Word} {s t : State} (h : step s = .next t)
    (hw : w ∈ t.cmd.get q) : w ∈ s.cmd.get q ∨ .issue q w ∈ s.agenda := by
  obtain ⟨-, ⟨-, rfl⟩ | ⟨q', es, ha, ht⟩ | ⟨q', w', es, ha, rfl⟩ | ⟨bs, es, ha, rfl⟩ |
    ⟨ws, es, ha, rfl⟩ | ⟨es, ha, rfl⟩⟩ := step_cases h
  · exact .inl hw
  · exact .inl (turn_queue_subset (s := s.setAgenda es) ht hw)
  · by_cases hq : q = q'
    · subst hq
      have hmem : w ∈ s.cmd.get q ++ [w'] := by simpa [State.issue] using hw
      rw [ha]
      exact (List.mem_append.mp hmem).imp_right fun hlast => by simp [List.mem_singleton.mp hlast]
    · exact .inl (by simpa [State.issue, hq] using hw)
  · exact .inl hw
  · exact .inl hw
  · cases q <;> simp [PerPort.get] at hw

/-- A step adds no event to those to come. -/
theorem step_agenda_subset {s t : State} (h : step s = .next t) : t.agenda ⊆ s.agenda := by
  have htail {e : Event} {es : List Event} (ha : s.agenda = e :: es) : es ⊆ s.agenda :=
    ha ▸ List.subset_cons_self e es
  obtain ⟨-, ⟨-, rfl⟩ | ⟨q, es, ha, ht⟩ | ⟨q, w, es, ha, rfl⟩ | ⟨bs, es, ha, rfl⟩ |
    ⟨ws, es, ha, rfl⟩ | ⟨es, ha, rfl⟩⟩ := step_cases h
  case inl => exact List.Subset.refl _
  case inr.inl =>
    rw [turn_keeps_agenda ht]
    exact htail ha
  all_goals exact htail ha

/-! ### The gate (R67, R70) -/

/-- While SYNC is clear every PKT and every CAP is held (R67). -/
theorem packet_held_of_sync_clear {s : State} (hs : s.sync = false) (n : Nat) :
    enabled (.pkt n) s = false ∧ enabled (.cap n) s = false := by
  simp [enabled, pktEnabled, capEnabled, hs]

theorem not_runsPacket_of_sync_clear {s : State} (hs : s.sync = false) : ¬ s.RunsPacket := by
  rintro ⟨q, n, hrun⟩
  obtain ⟨hpkt, hcap⟩ := packet_held_of_sync_clear hs n
  obtain hrun | hrun := hrun
  · exact Bool.eq_false_iff.mp hpkt (enabled_of_running hrun).1
  · exact Bool.eq_false_iff.mp hcap (enabled_of_running hrun).1

theorem mnemonic_of_buildInstr_syncset {m : Mnemonic} {a : BitVec 4} {imm : BitVec 24}
    (h : buildInstr m a imm = .syncset) : m = .SYNCSET := by
  cases m with
  | SYNCSET => rfl
  | _ => simp [buildInstr] at h

/-- SYNCSET has one word only: its row masks no bit (30_encoding.md R84). -/
theorem word_of_decode_syncset {w : Word} (h : decode w = .ok .syncset) : w = 0x31000000#32 := by
  have hrow : ∀ r ∈ opcodeTable, r.mnemonic = .SYNCSET →
      r.mask = BitVec.allOnes 32 ∧ r.pattern = 0x31000000#32 := by decide
  cases hr : rowOf w with
  | none => simp [decode, hr] at h
  | some r =>
    simp only [decode, hr, Except.ok.injEq] at h
    obtain ⟨hmask, hpattern⟩ := hrow r (mem_of_rowOf hr) (mnemonic_of_buildInstr_syncset h)
    have hsel : r.selects w = true := List.find?_some (p := fun r : Row => r.selects w) hr
    simpa only [Row.selects, hmask, hpattern, BitVec.and_allOnes, beq_iff_eq] using hsel

/-- The command the next step runs comes from a word in the queue of its port. -/
theorem word_of_running {q : Port} {s : State} {i : Instr} (h : s.running = some (q, i)) :
    ∃ w ∈ s.cmd.get q, decode w = .ok i := by
  unfold State.running at h
  split at h
  · rename_i q' es ha
    split at h
    · rename_i j u hu
      simp only [Option.some.injEq, Prod.mk.injEq] at h
      obtain ⟨rfl, rfl⟩ := h
      obtain ⟨w, rest, hc, hd, -⟩ := takeHead_run.mp hu
      have hmem : w ∈ (s.setAgenda es).cmd.get q' := hc ▸ List.mem_cons_self
      exact ⟨w, hmem, (allows_of_decodeOn hd).2⟩
    all_goals simp at h
  · simp at h

/-- Behind a closed gate the next step runs no SYNCSET. -/
theorem not_running_syncset {q : Port} {s : State} (hg : s.GateClosed) :
    s.running ≠ some (q, .syncset) := by
  intro hrun
  obtain ⟨-, hqueue, -⟩ := hg
  obtain rfl := List.mem_singleton.mp (enabled_of_running hrun).2
  obtain ⟨w, hw, hd⟩ := word_of_running hrun
  exact hqueue (word_of_decode_syncset hd ▸ hw)

theorem resetNext_of_gateClosed {s : State} (hg : s.GateClosed) : s.resetNext = false := by
  obtain ⟨-, -, -, hreset⟩ := hg
  refine Bool.eq_false_iff.mpr fun hr => hreset (List.mem_of_mem_head? ?_)
  simpa [State.resetNext] using hr

theorem sync_mem_writes {i : Instr} (h : .sync ∈ writes i) : i = .syncclr ∨ i = .syncset := by
  cases i with
  | syncclr => exact .inl rfl
  | syncset => exact .inr rfl
  | wr r v => cases r <;> simp [writes] at h
  | rd r => cases r <;> simp [writes, isReserved] at h
  | _ => simp [writes] at h

theorem rsp_p_mem_writes {i : Instr} (h : .rsp .p ∈ writes i) : ∃ n, i = .pkt n := by
  cases i with
  | pkt n => exact ⟨n, rfl⟩
  | wr r v => cases r <;> simp [writes] at h
  | rd r => cases r <;> simp [writes, isReserved] at h
  | _ => simp [writes] at h

theorem pend_mem_writes {i : Instr} (h : .pend ∈ writes i) :
    i = .pstart ∨ i = .pstop ∨ ∃ n, i = .pkt n := by
  cases i with
  | pstart => exact .inl rfl
  | pstop => exact .inr (.inl rfl)
  | pkt n => exact .inr (.inr ⟨n, rfl⟩)
  | wr r v => cases r <;> simp [writes] at h
  | rd r => cases r <;> simp [writes, isReserved] at h
  | _ => simp [writes] at h

section
variable {s t : State} (hg : s.GateClosed) (h : step s = .next t)
include hg h

/-- SYNC stays clear: of its two writers, SYNCCLR clears it and SYNCSET does not run. -/
theorem sync_clear_of_gateClosed : t.sync = false := by
  by_contra hset
  have hchange : ¬ Part.sync.Same s t := fun hs => hset (Eq.trans hs hg.1)
  obtain ⟨q, i, u, hrun, hw, -, -, ht⟩ :=
    step_changes h (resetNext_of_gateClosed hg) hchange (by decide)
  obtain rfl | rfl := sync_mem_writes hw
  · exact hset (of_effect (P := fun t => t.sync = false) ht rfl rfl)
  · exact not_running_syncset hg hrun

theorem step_keeps_gateClosed : t.GateClosed := by
  have ⟨_, hqueue, hissue, hreset⟩ := hg
  have hsub := step_agenda_subset h
  exact ⟨sync_clear_of_gateClosed hg h,
    fun hw => (mem_queue_of_step (q := .h) h hw).elim hqueue hissue,
    fun he => hissue (hsub he), fun he => hreset (hsub he)⟩

/-- RSP_P does not grow: only PKT answers there. -/
theorem rsp_p_of_gateClosed : t.rsp.p = s.rsp.p := by
  by_contra hchange
  obtain ⟨q, i, u, hrun, hw, -⟩ :=
    step_changes (x := .rsp .p) h (resetNext_of_gateClosed hg) hchange (by decide)
  obtain ⟨n, rfl⟩ := rsp_p_mem_writes hw
  exact not_runsPacket_of_sync_clear hg.1 ⟨q, n, .inl hrun⟩

/-- PEND is kept, or dropped by PSTART or PSTOP: its third writer, PKT, does not run. -/
theorem pend_of_gateClosed : t.pend = s.pend ∨ t.pend = [] := by
  refine or_iff_not_imp_left.mpr fun hchange => ?_
  obtain ⟨q, i, u, hrun, hw, -, -, ht⟩ :=
    step_changes (x := .pend) h (resetNext_of_gateClosed hg) hchange (by decide)
  obtain rfl | rfl | ⟨n, rfl⟩ := pend_mem_writes hw
  · exact of_effect (P := fun t => t.pend = []) ht rfl rfl
  · exact of_effect (P := fun t => t.pend = []) ht rfl rfl
  · exact absurd ⟨q, n, .inl hrun⟩ (not_runsPacket_of_sync_clear hg.1)

end

/-- What every step keeps holds after any number of steps. -/
theorem runSteps_keeps_of_step {P : State → Prop}
    (hstep : ∀ {s t : State}, P s → step s = .next t → P t) {n : Nat} {s t : State} (hs : P s)
    (h : runSteps n s = .next t) : P t := by
  induction n generalizing s with
  | zero => exact of_effect h (runSteps_zero s) hs
  | succ n ih =>
    obtain ⟨u, hu, hrest⟩ := runSteps_succ h
    exact ih (hstep hs hu) hrest

/-- The gate is closed, and since `s` no PKT has answered and none has filled PEND. -/
def State.QuietSince (s t : State) : Prop :=
  t.GateClosed ∧ t.rsp.p = s.rsp.p ∧ (t.pend = s.pend ∨ t.pend = [])

theorem quietSince_refl {s : State} (hg : s.GateClosed) : s.QuietSince s :=
  ⟨hg, rfl, .inl rfl⟩

/-- The quiet lasts over a step, whatever the state `s` it began in. -/
theorem step_keeps_quietSince {s t u : State} (hq : s.QuietSince t) (h : step t = .next u) :
    s.QuietSince u := by
  obtain ⟨hg, hrsp, hpend⟩ := hq
  refine ⟨step_keeps_gateClosed hg h, (rsp_p_of_gateClosed hg h).trans hrsp, ?_⟩
  obtain hkept | hdropped := pend_of_gateClosed hg h
  · rwa [hkept]
  · exact .inr hdropped

/-- Settles O25: a closed gate stays closed, because no SYNCSET is queued or issued; so no PKT runs,
and the other writers of the parts named only drop PEND. -/
theorem gateHoldsPackets : Obligations.GateHoldsPackets := by
  refine ⟨fun s t hg h => ?_, fun n s t hg h => ?_⟩
  · exact ⟨not_runsPacket_of_sync_clear hg.1, step_keeps_quietSince (quietSince_refl hg) h⟩
  · have hquiet : s.QuietSince t :=
      runSteps_keeps_of_step step_keeps_quietSince (quietSince_refl hg) h
    have ⟨⟨hsync, _⟩, _⟩ := hquiet
    exact ⟨not_runsPacket_of_sync_clear hsync, hquiet⟩

end Sys2Proof.Machine

/-! ## Proofs: the encoding of 30_encoding.md -/

namespace Sys2Proof.Machine

/-! ### Decoding an encoded command (R82, R84, R86, R87) -/

/-- The word of every command selects the command's own row. -/
theorem selectsRow : ∀ i : Instr, Laws.SelectsRow.Statement i
  | .nop => Laws.SelectsRow.nop
  | .wr r v => Laws.SelectsRow.wr r v
  | .rd r => Laws.SelectsRow.rd r
  | .syncclr => Laws.SelectsRow.syncclr
  | .syncset => Laws.SelectsRow.syncset
  | .cfgld => Laws.SelectsRow.cfgld
  | .pstart => Laws.SelectsRow.pstart
  | .pstop => Laws.SelectsRow.pstop
  | .cstart => Laws.SelectsRow.cstart
  | .cstop => Laws.SelectsRow.cstop
  | .w2n n => Laws.SelectsRow.w2n n
  | .n2w n => Laws.SelectsRow.n2w n
  | .pkt n => Laws.SelectsRow.pkt n
  | .cap n => Laws.SelectsRow.cap n
  | .fsize n => Laws.SelectsRow.fsize n
  | .tick n => Laws.SelectsRow.tick n

/-- The operands of a well-formed command are read back from the fields of its word. -/
theorem buildInstr_encode {i : Instr} (h : i.WellFormed) :
    buildInstr (Laws.SelectsRow.mnemonicOf i) (aField (encode i)) (immField (encode i)) = i := by
  cases i with
  | w2n n | n2w n | pkt n | cap n | fsize n | tick n =>
    have hn : n < 2 ^ 24 := h n rfl
    simpa [buildInstr, Laws.SelectsRow.mnemonicOf, encode] using hn
  | wr r v | rd r => simp [buildInstr, Laws.SelectsRow.mnemonicOf, encode]
  | _ => rfl

theorem decode_encode {i : Instr} (h : i.WellFormed) : decode (encode i) = .ok i := by
  obtain ⟨r, -, hrow, hm, -⟩ := selectsRow i
  simp only [decode, hrow, hm, buildInstr_encode h]

/-- Settles O2: the word selects the command's row and its fields hold the operands; the port's check
follows the decoding. -/
theorem decodeOfEncode : Obligations.DecodeOfEncode :=
  fun _ h => ⟨decode_encode h, fun q => by rw [decodeOn_eq, decode_encode h]⟩

/-! ### Encoding a decoded command (R82, R84, R90) -/

theorem buildInstr_wellFormed (m : Mnemonic) (a : BitVec 4) (imm : BitVec 24) :
    (buildInstr m a imm).WellFormed := by
  intro n hn
  cases m with
  | W2N | N2W | PKT | CAP | FSIZE | TICK =>
    obtain rfl : imm.toNat = n := Option.some.inj hn
    exact imm.isLt
  | _ => simp [buildInstr, Instr.count] at hn

/-- A field that is no operand of the row has the value the row fixes, so encoding gives it back. -/
theorem encode_buildInstr {op a : BitVec 4} {imm : BitVec 24} {m : Mnemonic}
    (h : mnemonicOfFields op a imm = some m) :
    encode (buildInstr m a imm) = wordOfFields op a imm := by
  unfold mnemonicOfFields at h
  split at h
  -- the cases are the opcodes in order; opcode 3 (`h_4`) has its row in `a`, 10 and above have none
  case h_11 => cases h
  all_goals
    rename_i hop
    obtain ⟨-, rfl⟩ := BitVec.toNat_eq_nat.mp hop
  case h_1 =>
    obtain ⟨⟨rfl, rfl⟩, rfl⟩ : (a = 0 ∧ imm = 0) ∧ _ = m := by simpa using h
    rfl
  case h_2 =>
    obtain rfl := Option.some.inj h
    simp [buildInstr, encode]
  case h_3 =>
    obtain ⟨rfl, rfl⟩ : imm = 0 ∧ _ = m := by simpa using h
    simp [buildInstr, encode]
  case h_4 =>
    obtain ⟨rfl, hm⟩ := Option.ite_none_right_eq_some.mp h
    clear h
    split at hm
    case h_8 => cases hm
    all_goals
      rename_i ha
      obtain ⟨-, rfl⟩ := BitVec.toNat_eq_nat.mp ha
      obtain rfl := Option.some.inj hm
      rfl
  all_goals
    obtain ⟨rfl, rfl⟩ : a = 0 ∧ _ = m := by simpa using h
    simp [buildInstr, encode]

/-- A decoded command is that of a mnemonic its word's fields select. -/
theorem mnemonicOfFields_of_decode {w : Word} {i : Instr} (h : decode w = .ok i) :
    ∃ m, mnemonicOfFields (opField w) (aField w) (immField w) = some m ∧
      buildInstr m (aField w) (immField w) = i := by
  rw [decode_eq] at h
  split at h
  · rename_i m hm
    exact ⟨m, hm, Except.ok.inj h⟩
  · cases h

/-- Settles O4: the encoder puts the word's own fields back together. -/
theorem encodeOfDecode : Obligations.EncodeOfDecode := by
  intro w i h
  obtain ⟨m, hm, rfl⟩ := mnemonicOfFields_of_decode h
  exact ⟨buildInstr_wellFormed m _ _, (encode_buildInstr hm).trans (wordOfFields_fields w)⟩

/-! ### The operands (R83) -/

theorem immField_encode_of_count {i : Instr} {n : Nat} (h : n ∈ i.count) :
    immField (encode i) = BitVec.ofNat 24 n := by
  cases i with
  | w2n k | n2w k | pkt k | cap k | fsize k | tick k =>
    obtain rfl : k = n := Option.some.inj h
    simp [encode]
  | _ => simp [Instr.count] at h

/-- Settles O5: the word is the command's encoding, whose fields are the operands. -/
theorem operandsTakenAsTheyStand : Obligations.OperandsTakenAsTheyStand := by
  intro w i h
  obtain ⟨hwf, rfl⟩ := encodeOfDecode w i h
  simp only [← immField_toNat, ← aField_toNat]
  refine ⟨fun n hn => ?_, ?_, ?_⟩
  · rw [immField_encode_of_count hn, BitVec.toNat_ofNat, Nat.mod_eq_of_lt (hwf n hn)]
  · rintro r v rfl
    simp [encode]
  · rintro r rfl
    simp [encode]

/-! ### The rows of the opcode map (R84) -/

/-- Where both masks have a bit, the patterns of two rows that one word selects agree. -/
theorem pattern_and_mask_of_selects {r r' : Row} {w : Word} (h : r.selects w = true)
    (h' : r'.selects w = true) : r.pattern &&& r'.mask = r'.pattern &&& r.mask := by
  simp only [Row.selects, beq_iff_eq] at h h'
  rw [← h, ← h', BitVec.and_assoc, BitVec.and_assoc, BitVec.and_comm r.mask]

/-- Settles O6: the patterns of two different rows differ in a bit that both masks have. -/
theorem rowsAreDisjoint : Obligations.RowsAreDisjoint := by
  have hdiffer : ∀ r ∈ opcodeTable, ∀ r' ∈ opcodeTable,
      r.pattern &&& r'.mask = r'.pattern &&& r.mask → r = r' := by decide
  exact fun w r r' hr hr' h h' => hdiffer r hr r' hr' (pattern_and_mask_of_selects h h')

/-- The row a word selects is the row it is decoded by. -/
theorem rowOf_eq_some_of_selects {r : Row} {w : Word} (hr : r ∈ opcodeTable)
    (h : r.selects w = true) : rowOf w = some r := by
  cases hrow : rowOf w with
  | none => exact absurd h (Bool.eq_false_iff.mp (rowOf_eq_none.mp hrow r hr))
  | some r' =>
    have h' : r'.selects w = true := List.find?_some (p := fun r : Row => r.selects w) hrow
    rw [rowsAreDisjoint w r r' hr (mem_of_rowOf hrow) h h']

/-! ### Reserved words (R88) and port rights (R86) -/

/-- The five classes of R88, by the fields. The operand counts only as 0 or not, so the fields are
finitely many. -/
theorem mnemonicOfFields_eq_none {op a : BitVec 4} {imm : BitVec 24} :
    mnemonicOfFields op a imm = none ↔
      10 ≤ op.toNat ∨
      (op.toNat = 0 ∧ ¬ (a = 0 ∧ imm = 0)) ∨
      (op.toNat = 2 ∧ imm ≠ 0) ∨
      (op.toNat = 3 ∧ (a.toNat = 3 ∨ 8 ≤ a.toNat ∨ imm ≠ 0)) ∨
      (4 ≤ op.toNat ∧ op.toNat ≤ 9 ∧ a ≠ 0) := by
  unfold mnemonicOfFields
  obtain ⟨z, hz⟩ : ∃ z : Bool, (imm = 0) = (z = true) := ⟨imm == 0, by simp⟩
  simp only [ne_eq, hz]
  clear hz imm
  revert op a z
  decide

theorem reserved_iff_mnemonicOfFields (w : Word) : (∀ r ∈ opcodeTable, r.selects w = false) ↔
    mnemonicOfFields (opField w) (aField w) (immField w) = none := by
  rw [← rowOf_eq_none, ← rowOf_mnemonic, Option.map_eq_none_iff]

/-- The step that takes a word that is no command on its port raises ILLOP, no more (R87). -/
theorem step_of_decodeOn_error {q : Port} {s : State} {w : Word} {rest : List Word}
    {es : List Event} {e : Reject} (hl : s.params.Legal) (ha : s.agenda = .turn q :: es)
    (hc : s.cmd.get q = w :: rest) (hd : decodeOn q w = .error e) :
    step s = .next { s with agenda := es, cmd := s.cmd.set q rest, illop := true } :=
  (step_of_legal hl ha).trans (turn_rejected (s := s.setAgenda es) hc hd)

/-- Settles O7: the classes by number are the classes by field, and a word of no row is rejected. -/
theorem reservedWordsRaiseIllop : Obligations.ReservedWordsRaiseIllop := by
  refine ⟨fun w => ?_, fun w q s rest es hl ha hc hreserved => ?_⟩
  · rw [reserved_iff_mnemonicOfFields, mnemonicOfFields_eq_none]
    simp only [ne_eq, BitVec.toNat_eq, opField_toNat, aField_toNat, immField_toNat,
      BitVec.ofNat_eq_ofNat, BitVec.toNat_ofNat, Nat.zero_mod]
    omega
  · have hd : decodeOn q w = .error .reservedWord := by
      simp only [decodeOn, rowOf_eq_none.mpr hreserved]
    exact step_of_decodeOn_error hl ha hc hd

/-- Settles O8: the rights are read off the table, and a word whose row lacks the port is rejected. -/
theorem portRights : Obligations.PortRights := by
  refine ⟨by decide, fun w r q s rest es hl ha hc hr hs hq => ?_⟩
  have hd : decodeOn q w = .error .notAllowedOnPort := by
    simp only [decodeOn, rowOf_eq_some_of_selects hr hs, if_neg hq]
  exact step_of_decodeOn_error hl ha hc hd

/-! ### Words written out (R81, R92) -/

/-- Settles O1, by running the decoder on the eleven words. -/
theorem writtenWordsDecode : Obligations.WrittenWordsDecode := by
  unfold Obligations.WrittenWordsDecode
  decide

theorem wordOfFields_toNat_of_count (op : BitVec 4) {n : Nat} (hn : n < 2 ^ 24) :
    (wordOfFields op 0 (BitVec.ofNat 24 n)).toNat = op.toNat * 2 ^ 28 + n := by
  rw [wordOfFields_toNat, BitVec.toNat_ofNat, Nat.mod_eq_of_lt hn]
  simp

/-- Settles O3: a word is the sum of its fields, each scaled to its place. -/
theorem wordsAsNumbers : Obligations.WordsAsNumbers := by
  refine ⟨fun r v => ⟨?_, ?_⟩, fun n hn => ⟨?_, ?_, ?_, ?_, ?_, ?_⟩, by decide⟩
  · exact (wordOfFields_toNat _ _ _).trans (by simp)
  · exact (wordOfFields_toNat _ _ _).trans (by simp)
  all_goals exact wordOfFields_toNat_of_count _ hn

end Sys2Proof.Machine

/-! ## Proofs: the width converter of 41_converter.md -/

namespace Sys2Proof.Machine

open Host (Outcome)

/-! ### What every command writes (R114, R115, R121, R136, R137, R147, R160 to R169) -/

/-- Settles O30: every command answers a next state, and its effect stays within its frame. -/
theorem frameOfEveryCommand : Obligations.FrameOfEveryCommand := by
  intro i s
  obtain ⟨t, ht⟩ := exec_next i s
  exact ⟨t, ht, exec_frame ht⟩

/-! ### One channel-sample (R112, R113, R117) -/

/-- A native word is the word whose first byte on a link is the zero padding (R56, R112). -/
theorem w2nCh_eq_wordOfBytes (b0 b1 b2 : Byte) : w2nCh b0 b1 b2 = wordOfBytes 0 b0 b1 b2 := rfl

/-- The wire bytes of a word are its link bytes without the first one (R56, R113). -/
theorem n2wCh_eq_tail (w : Word) : n2wCh w = (bytesOfWord w).tail := rfl

theorem w2nCh_toNat (b0 b1 b2 : Byte) :
    (w2nCh b0 b1 b2).toNat = (b0.toNat + 256 * b1.toNat + 65536 * b2.toNat) * 256 := by
  have hpad : (0 : Byte).toNat = 0 := rfl
  rw [w2nCh_eq_wordOfBytes, wordOfBytes_toNat, hpad]
  omega

theorem n2wCh_toNat (n : Word) : (n2wCh n).map BitVec.toNat =
    [n.toNat / 2 ^ 8 % 256, n.toNat / 2 ^ 16 % 256, n.toNat / 2 ^ 24] := by
  have htop : n.toNat / 2 ^ 24 < 2 ^ 8 := Nat.div_lt_of_lt_mul n.isLt
  simp only [n2wCh, List.map_cons, List.map_nil, toNat_extract, Nat.mod_eq_of_lt htop]
  rfl

/-- Settles O40: both values, by the place of each byte in the word. -/
theorem widthConversionValues : Obligations.WidthConversionValues :=
  ⟨w2nCh_toNat, n2wCh_toNat⟩

theorem n2wCh_w2nCh (b0 b1 b2 : Byte) : n2wCh (w2nCh b0 b1 b2) = [b0, b1, b2] := by
  rw [n2wCh_eq_tail, w2nCh_eq_wordOfBytes, bytesOfWord_wordOfBytes, List.tail_cons]

/-- The word made of a word's own wire bytes: the low byte is gone. -/
theorem w2nCh_of_n2wCh {n : Word} {b0 b1 b2 : Byte} (h : n2wCh n = [b0, b1, b2]) :
    (w2nCh b0 b1 b2).toNat = n.toNat - n.toNat % 256 := by
  simp only [n2wCh, List.cons.injEq, and_true] at h
  obtain ⟨rfl, rfl, rfl⟩ := h
  have hlow : (n.extractLsb' 0 8).toNat = n.toNat % 256 := by simp
  have hn := word_toNat_eq_bytes n
  rw [w2nCh_toNat]
  omega

/-! ### Sequences of samples (R111, R117) -/

theorem and_wordOfBytes (b0 b1 b2 b3 m0 m1 m2 m3 : Byte) :
    wordOfBytes b0 b1 b2 b3 &&& wordOfBytes m0 m1 m2 m3 =
      wordOfBytes (b0 &&& m0) (b1 &&& m1) (b2 &&& m2) (b3 &&& m3) := by
  unfold wordOfBytes
  rw [← BitVec.and_append, ← BitVec.and_append, ← BitVec.and_append]

/-- A word made of a word's own wire bytes is the word with its low byte masked off. -/
theorem w2nCh_extract (n : Word) :
    w2nCh (n.extractLsb' 8 8) (n.extractLsb' 16 8) (n.extractLsb' 24 8) = n &&& 0xFFFFFF00#32 := by
  have hmask : 0xFFFFFF00#32 = wordOfBytes 0 0xFF 0xFF 0xFF := rfl
  have hkeep (b : Byte) : b &&& 0xFF = b := BitVec.and_allOnes
  have hclear (b : Byte) : b &&& 0 = 0 := BitVec.and_zero
  conv_rhs => rw [← wordOfBytes_extract n, hmask, and_wordOfBytes, hkeep, hkeep, hkeep, hclear]
  rfl

/-- Native to wire and back clears the low byte of every word (R117). -/
theorem wireToNative_nativeToWire (ws : List Word) :
    wireToNative (nativeToWire ws) = ws.map (· &&& 0xFFFFFF00#32) := by
  induction ws with
  | nil => rfl
  | cons w ws ih =>
    calc wireToNative (nativeToWire (w :: ws))
        = w2nCh (w.extractLsb' 8 8) (w.extractLsb' 16 8) (w.extractLsb' 24 8) ::
            wireToNative (nativeToWire ws) := rfl
      _ = (w :: ws).map (· &&& 0xFFFFFF00#32) := by rw [w2nCh_extract, ih, List.map_cons]

/-- Settles O41: one sample each way, then whole sequences by induction on the words. -/
theorem widthConversionRoundTrips : Obligations.WidthConversionRoundTrips :=
  ⟨n2wCh_w2nCh, fun _ _ _ _ h => w2nCh_of_n2wCh h, wireToNative_nativeToWire⟩

/-! ### W2N and N2W (R114, R115) -/

theorem w2nEnabled_iff {n : Nat} {s : State} :
    enabled (.w2n n) s = true ↔ s.params.W * n ≤ s.wireIn.length :=
  decide_eq_true_iff

theorem n2wEnabled_iff {n : Nat} {s : State} :
    enabled (.n2w n) s = true ↔ s.params.CH * n ≤ s.nativeIn.length :=
  decide_eq_true_iff

/-- A conditional effect whose condition holds is that of its first branch. -/
theorem effect_of_true {e : Outcome State Fault Refusal} {c : Bool} {u v : State}
    (heff : e = .next (if c then u else v)) (hc : c = true) : e = .next u := by
  rw [heff, if_pos hc]

/-- W2N, enabled: whole groups of bytes become words by the rule's comprehension. -/
theorem exec_w2n_of_le {s : State} {n : Nat} (hl : s.params.Legal)
    (hn : s.params.W * n ≤ s.wireIn.length) :
    exec (.w2n n) s = .next { s with
      wireIn := s.wireIn.drop (s.params.W * n)
      nativeOut := s.nativeOut ++
        wordsAt (s.wireIn.take (s.params.W * n)) (s.params.CH * n) } := by
  rw [wordsAt_take _ _ _ (groupBytes_of_legal hl n).ge, ← wireToNative_groups hl _ _ hn]
  exact effect_of_true (execW2n_eq n s) (w2nEnabled_iff.mpr hn)

/-- N2W, enabled. -/
theorem exec_n2w_of_le {s : State} {n : Nat} (hn : s.params.CH * n ≤ s.nativeIn.length) :
    exec (.n2w n) s = .next { s with
      nativeIn := s.nativeIn.drop (s.params.CH * n)
      wireOut := s.wireOut ++ nativeToWire (s.nativeIn.take (s.params.CH * n)) } :=
  effect_of_true (execN2w_eq n s) (n2wEnabled_iff.mpr hn)

/-- One more word in front puts its three bytes in front. -/
theorem isWireOf_cons {out : List Byte} {ws : List Word} {k : Nat} (w : Word)
    (h : IsWireOf out ws k) : IsWireOf (n2wCh w ++ out) (w :: ws) (k + 1) := by
  obtain ⟨hlen, hbytes⟩ := h
  refine ⟨by rw [List.length_append, n2wCh_length, hlen]; omega, fun j hj => ?_⟩
  cases j with
  | zero => exact ⟨rfl, rfl, rfl⟩
  | succ j => exact hbytes j (by omega)

/-- The conversion of a sequence is the concatenation of its words' bytes, byte by byte. -/
theorem isWireOf_nativeToWire (ws : List Word) : IsWireOf (nativeToWire ws) ws ws.length := by
  induction ws with
  | nil => exact ⟨rfl, fun j hj => absurd hj j.not_lt_zero⟩
  | cons w ws ih => exact isWireOf_cons w ih

/-- The first `k` words of a sequence that holds them, as wire bytes. -/
theorem isWireOf_nativeToWire_take {ws : List Word} {k : Nat} (hk : k ≤ ws.length) :
    IsWireOf (nativeToWire (ws.take k)) (ws.take k) k := by
  simpa only [List.length_take_of_le hk] using isWireOf_nativeToWire (ws.take k)

/-- `n` sample-groups of native words are `W * n` bytes on the wire (R116). -/
theorem nativeToWire_groups_length {p : Params} (hl : p.Legal) {ws : List Word} {n : Nat}
    (hn : p.CH * n ≤ ws.length) : (nativeToWire (ws.take (p.CH * n))).length = p.W * n := by
  rw [nativeToWire_length, List.length_take_of_le hn, groupBytes_of_legal hl]

/-- Settles O42: the enabling condition as it stands, and the effect by whole groups. -/
theorem w2nConvertsGroups : Obligations.W2nConvertsGroups :=
  fun _ _ => ⟨w2nEnabled_iff, exec_w2n_of_le⟩

/-- Settles O43: the bytes pushed are the conversion of the words popped. -/
theorem n2wConvertsGroups : Obligations.N2wConvertsGroups :=
  fun _ _ => ⟨n2wEnabled_iff, fun hl hn => ⟨_, exec_n2w_of_le hn,
    nativeToWire_groups_length hl hn, isWireOf_nativeToWire_take hn⟩⟩

/-! ### Lengths (R116) -/

theorem length_sub_length_drop {α : Type} {l : List α} {k : Nat} (hk : k ≤ l.length) :
    l.length - (l.drop k).length = k := by
  rw [List.length_drop, Nat.sub_sub_self hk]

theorem length_append_sub_length {α : Type} (l m : List α) :
    (l ++ m).length - l.length = m.length := by
  rw [List.length_append, Nat.add_sub_cancel_left]

section
variable {s t : State} {n : Nat} (hl : s.params.Legal)
include hl

/-- An enabled W2N takes `3 * CH * n` bytes and gives `CH * n` words. -/
theorem w2n_lengths (he : enabled (.w2n n) s = true) (h : exec (.w2n n) s = .next t) :
    s.wireIn.length - t.wireIn.length = 3 * (s.params.CH * n) ∧
      t.nativeOut.length - s.nativeOut.length = s.params.CH * n := by
  have hn := w2nEnabled_iff.mp he
  obtain rfl := Outcome.next.inj ((exec_w2n_of_le hl hn).symm.trans h)
  constructor
  · exact (length_sub_length_drop hn).trans (groupBytes_of_legal hl n)
  · exact (length_append_sub_length _ _).trans (wordsAt_length _ _)

/-- An enabled N2W takes `CH * n` words and gives `3 * CH * n` bytes. -/
theorem n2w_lengths (he : enabled (.n2w n) s = true) (h : exec (.n2w n) s = .next t) :
    s.nativeIn.length - t.nativeIn.length = s.params.CH * n ∧
      t.wireOut.length - s.wireOut.length = 3 * (s.params.CH * n) := by
  have hn := n2wEnabled_iff.mp he
  obtain rfl := Outcome.next.inj ((exec_n2w_of_le hn).symm.trans h)
  constructor
  · exact length_sub_length_drop hn
  · exact (length_append_sub_length _ _).trans
      ((nativeToWire_groups_length hl hn).trans (groupBytes_of_legal hl n))

end

/-- Settles O44: both ratios follow from the counts of bytes and words. -/
theorem conversionLengths : Obligations.ConversionLengths := by
  refine ⟨fun s t n hl he h => ?_, fun s t n hl he h => ?_⟩
  · obtain ⟨hin, hout⟩ := w2n_lengths hl he h
    rw [hin, hout, Nat.mul_assoc]
    exact ⟨by omega, rfl⟩
  · obtain ⟨hin, hout⟩ := n2w_lengths hl he h
    rw [hin, hout, Nat.mul_assoc]
    exact ⟨by omega, rfl⟩

end Sys2Proof.Machine

/-! ## Proofs: the realignment engine of 42_realign.md -/

namespace Sys2Proof.Machine

open Host (Outcome)

/-! ### Words of a byte sequence that arrives in two parts -/

/-- The words of the first part, then those of what it leaves over with the second part after it. -/
theorem wordsAt_append {b : List Byte} {k : Nat} (hk : 3 * k ≤ b.length) (b' : List Byte)
    (l : Nat) : wordsAt (b ++ b') (k + l) = wordsAt b k ++ wordsAt (b.drop (3 * k) ++ b') l := by
  have hfirst : wordsAt (b ++ b') k = wordsAt b k := by
    simpa using (wordsAt_take (b ++ b') k b.length hk).symm
  rw [wordsAt_add, hfirst, List.drop_append_of_le_length hk]

/-! ### The effect of a stretch of the byte stream (R121) -/

/-- What the engine has done once the next `L` bytes of WIRE_IN have gone through it, with the
answers it gave on the way: R121, with the groups by index. -/
def State.realigned (L : Nat) (answers : List Word) (s : State) : State :=
  { s with
    wireIn := s.wireIn.drop L
    nativeOut := s.nativeOut ++
      wordsAt (s.pend ++ s.wireIn.take L) (s.params.CH * groupsOf L s)
    pend := (s.pend ++ s.wireIn.take L).drop (s.params.W * groupsOf L s)
    rsp := { s.rsp with p := s.rsp.p ++ answers } }

section
variable (s : State) (L : Nat) (answers : List Word)

@[simp] theorem State.realigned_params : (s.realigned L answers).params = s.params := rfl
@[simp] theorem State.realigned_wireIn :
    (s.realigned L answers).wireIn = s.wireIn.drop L := rfl
@[simp] theorem State.realigned_nativeOut : (s.realigned L answers).nativeOut = s.nativeOut ++
    wordsAt (s.pend ++ s.wireIn.take L) (s.params.CH * groupsOf L s) := rfl
@[simp] theorem State.realigned_pend : (s.realigned L answers).pend =
    (s.pend ++ s.wireIn.take L).drop (s.params.W * groupsOf L s) := rfl
@[simp] theorem State.realigned_rsp :
    (s.realigned L answers).rsp = { s.rsp with p := s.rsp.p ++ answers } := rfl

end

/-- The answer to a packet that completes `g` groups (R91, R121). -/
def groupAnswer (g : Nat) : Word := BitVec.ofNat 32 (g % 2 ^ 24)

theorem pktEnabled_iff {L : Nat} {s : State} :
    enabled (.pkt L) s = true ↔ s.sync = true ∧ s.pbRun = true ∧ L ≤ s.wireIn.length := by
  simp [enabled, pktEnabled, and_assoc]

/-- The bytes that the groups leave over are `R` of R121 in number. -/
theorem leftover_length {s : State} {L : Nat} (hL : L ≤ s.wireIn.length) :
    ((s.pend ++ s.wireIn.take L).drop (s.params.W * groupsOf L s)).length =
      (s.carry + L) % s.params.W := by
  rw [List.length_drop, List.length_append, List.length_take_of_le hL, Nat.mod_def]
  rfl

theorem carry_realigned {s : State} {L : Nat} (hL : L ≤ s.wireIn.length) (answers : List Word) :
    (s.realigned L answers).carry = (s.carry + L) % s.params.W :=
  leftover_length hL

/-- An enabled PKT sends its packet through the engine and answers the group count. -/
theorem exec_pkt_of_enabled {s : State} {L : Nat} (hl : s.params.Legal)
    (he : enabled (.pkt L) s = true) :
    exec (.pkt L) s = .next (s.realigned L [groupAnswer (groupsOf L s)]) := by
  obtain ⟨-, -, hL⟩ := pktEnabled_iff.mp he
  refine (effect_of_true (execPkt_eq L s) he).trans ?_
  rw [wireToNative_groups hl _ _ (groupsOf_le hL), answer_eq,
    List.take_of_length_le (leftover_length hL).le]
  rfl

/-- A 24-bit packet cannot complete `2^24` groups, so its answer is the group count itself. -/
theorem groupsOf_lt {s : State} {L : Nat} (hl : s.params.Legal) (hc : s.carry < s.params.W)
    (hL : L < 2 ^ 24) : groupsOf L s < 2 ^ 24 := by
  have hw : 3 ≤ s.params.W := by
    obtain ⟨hw, -⟩ | ⟨hw, -⟩ := shape_of_legal hl <;> omega
  exact Nat.div_lt_of_lt_mul (by omega)

theorem groupAnswer_toNat {g : Nat} (hg : g < 2 ^ 24) : (groupAnswer g).toNat = g := by
  rw [groupAnswer, BitVec.toNat_ofNat]
  omega

/-- Settles O45: the effect of an enabled PKT, written out. -/
theorem pktRealigns : Obligations.PktRealigns := by
  refine fun s L => ⟨pktEnabled_iff, fun hl hs hp hL => ?_⟩
  exact ⟨_, exec_pkt_of_enabled hl (pktEnabled_iff.mpr ⟨hs, hp, hL⟩), rfl,
    carry_realigned hL _, fun ⟨_, hc, _⟩ h24 => groupsOf_lt hl hc h24⟩

/-! ### Packets that complete no group (R124, R125) -/

theorem realigned_of_lt {s : State} {L : Nat} (h : s.carry + L < s.params.W)
    (answers : List Word) :
    s.realigned L answers =
      { s with
        wireIn := s.wireIn.drop L
        pend := s.pend ++ s.wireIn.take L
        rsp := { s.rsp with p := s.rsp.p ++ answers } } := by
  have hg : groupsOf L s = 0 := Nat.div_eq_of_lt h
  simp [State.realigned, hg]

/-- No byte and no answer: nothing happens. -/
theorem realigned_zero {s : State} (h : s.carry < s.params.W) : s.realigned 0 [] = s := by
  rw [realigned_of_lt h]
  simp

theorem exec_pkt_of_lt {s : State} {L : Nat} (hl : s.params.Legal)
    (he : enabled (.pkt L) s = true) (h : s.carry + L < s.params.W) :
    exec (.pkt L) s = .next { s with
      wireIn := s.wireIn.drop L
      pend := s.pend ++ s.wireIn.take L
      rsp := { s.rsp with p := s.rsp.p ++ [0#32] } } := by
  have hg : groupsOf L s = 0 := Nat.div_eq_of_lt h
  rw [exec_pkt_of_enabled hl he, realigned_of_lt h, hg]
  rfl

/-- Settles O47: the packet completes 0 groups. -/
theorem pktShortPacketAccumulates : Obligations.PktShortPacketAccumulates :=
  fun _ _ => exec_pkt_of_lt

/-- Settles O48: a packet of no bytes is a short packet, behind the same gate. -/
theorem pktZeroLengthIsNoOp : Obligations.PktZeroLengthIsNoOp := by
  intro s hi
  obtain ⟨hl, hc, -⟩ := hi
  refine ⟨fun hs hp => ?_, fun hgate => ?_⟩
  · have he : enabled (.pkt 0) s = true := pktEnabled_iff.mpr ⟨hs, hp, Nat.zero_le _⟩
    rw [exec_pkt_of_lt hl he hc]
    simp
  · rw [← Bool.not_eq_true, pktEnabled_iff]
    rintro ⟨hs, hp, -⟩
    simp [hs, hp] at hgate

/-! ### The transition table (R127) -/

/-- The table's entries are the closed form, for `r + 3 * q` bytes after `c` pending ones. -/
theorem monoTable_closedForm {c r : Nat} (hc : c < 3) (hr : r < 3) (q : Nat) :
    (c, r, (c + (r + 3 * q)) % 3, (c + (r + 3 * q)) / 3) ∈
      [(0, 0, 0, q), (0, 1, 1, q), (0, 2, 2, q),
       (1, 0, 1, q), (1, 1, 2, q), (1, 2, 0, q + 1),
       (2, 0, 2, q), (2, 1, 0, q + 1), (2, 2, 1, q + 1)] := by
  rw [← Nat.add_assoc, Nat.add_mul_mod_self_left, Nat.add_mul_div_left _ _ (by decide),
    Nat.add_comm _ q]
  interval_cases c <;> interval_cases r <;> simp

/-- Settles O49: the carry after and the groups pushed are the closed form that the table lists. -/
theorem pktTransitionTableMono : Obligations.PktTransitionTableMono := by
  intro s t L hi hw he h
  obtain ⟨hl, hc, -⟩ := hi
  obtain ⟨-, -, hL⟩ := pktEnabled_iff.mp he
  obtain rfl := Outcome.next.inj ((exec_pkt_of_enabled hl he).symm.trans h)
  have hch : s.params.CH = 1 := by
    obtain ⟨-, hch⟩ | ⟨hw', -⟩ := shape_of_legal hl <;> omega
  have hgroups : (s.realigned L [groupAnswer (groupsOf L s)]).nativeOut.length -
      s.nativeOut.length = (s.carry + L) / 3 := by
    refine (length_append_sub_length _ _).trans ?_
    rw [wordsAt_length, hch, Nat.one_mul, groupsOf, hw]
  have htable := monoTable_closedForm (hw ▸ hc) (Nat.mod_lt L (by decide)) (L / 3)
  rw [Nat.mod_add_div] at htable
  simpa only [hgroups, carry_realigned hL, hw] using htable

/-! ### Two stretches are one (R123, R126) -/

/-- The groups of a stretch are those of its first part and those of the rest. -/
theorem groupsOf_add {s : State} {T : Nat} (hl : s.params.Legal) (hT : T ≤ s.wireIn.length)
    (L : Nat) (answers : List Word) :
    groupsOf (T + L) s = groupsOf T s + groupsOf L (s.realigned T answers) := by
  have hsplit : s.carry + (T + L) =
      s.params.W * ((s.carry + T) / s.params.W) + ((s.carry + T) % s.params.W + L) := by
    have := Nat.div_add_mod (s.carry + T) s.params.W
    omega
  simp only [groupsOf, carry_realigned hT]
  rw [hsplit, Nat.mul_add_div (groupBytes_pos hl)]
  rfl

/-- How the byte stream is cut does not matter: two stretches, one after the other, are one. -/
theorem realigned_realigned {s : State} {T : Nat} (hl : s.params.Legal)
    (hT : T ≤ s.wireIn.length) (L : Nat) (first rest : List Word) :
    (s.realigned T first).realigned L rest = s.realigned (T + L) (first ++ rest) := by
  have hbytes : s.pend ++ s.wireIn.take (T + L) =
      (s.pend ++ s.wireIn.take T) ++ (s.wireIn.drop T).take L := by
    rw [List.take_add, List.append_assoc]
  have hle := groupsOf_le hT
  have hwords : wordsAt (s.pend ++ s.wireIn.take (T + L)) (s.params.CH * groupsOf (T + L) s) =
      wordsAt (s.pend ++ s.wireIn.take T) (s.params.CH * groupsOf T s) ++
        wordsAt ((s.pend ++ s.wireIn.take T).drop (s.params.W * groupsOf T s) ++
          (s.wireIn.drop T).take L) (s.params.CH * groupsOf L (s.realigned T first)) := by
    rw [hbytes, groupsOf_add hl hT L first, Nat.mul_add, groupBytes_of_legal hl]
    exact wordsAt_append (groupBytes_of_legal hl _ ▸ hle) _ _
  have hpend : (s.pend ++ s.wireIn.take (T + L)).drop (s.params.W * groupsOf (T + L) s) =
      ((s.pend ++ s.wireIn.take T).drop (s.params.W * groupsOf T s) ++
        (s.wireIn.drop T).take L).drop (s.params.W * groupsOf L (s.realigned T first)) := by
    rw [hbytes, groupsOf_add hl hT L first, Nat.mul_add, ← List.drop_drop,
      List.drop_append_of_le_length hle]
  conv_rhs =>
    rw [State.realigned, hwords, hpend, ← List.append_assoc, ← List.append_assoc, ← List.drop_drop]
  rfl

/-! ### The emission plan (R123) -/

/-- The bytes missing from the pending group: part (i) of the plan. -/
def State.missing (s : State) : Nat := (s.params.W - s.carry) % s.params.W

/-- With the missing bytes, the pending ones are whole groups: one, or none if none was pending. -/
theorem carry_add_missing {s : State} (hc : s.carry < s.params.W) :
    s.carry + s.missing = s.params.W * if 0 < s.carry then 1 else 0 := by
  unfold State.missing
  split
  next hpos => rw [Nat.mod_eq_of_lt (by omega)]; omega
  next hzero => rw [show s.carry = 0 by omega, Nat.sub_zero, Nat.mod_self, Nat.mul_zero]

theorem groupsOf_missing {s : State} (hc : s.carry < s.params.W) :
    groupsOf s.missing s = if 0 < s.carry then 1 else 0 := by
  rw [groupsOf, carry_add_missing hc, Nat.mul_div_cancel_left _ (by omega)]

/-- From an empty carry only the new bytes count. -/
theorem realigned_of_carry_zero {s : State} (hc : s.carry = 0) (L : Nat) (answers : List Word) :
    s.realigned L answers =
      { s with
        wireIn := s.wireIn.drop L
        nativeOut := s.nativeOut ++
          wordsAt (s.wireIn.take L) (s.params.CH * (L / s.params.W))
        pend := (s.wireIn.take L).drop (s.params.W * (L / s.params.W))
        rsp := { s.rsp with p := s.rsp.p ++ answers } } := by
  have hp : s.pend = [] := List.eq_nil_of_length_eq_zero hc
  have hg : groupsOf L s = L / s.params.W := by rw [groupsOf, hc, Nat.zero_add]
  rw [State.realigned, hp, hg, List.nil_append]

theorem carry_realigned_missing {s : State} (hc : s.carry < s.params.W)
    (hk : s.missing ≤ s.wireIn.length) : (s.realigned s.missing []).carry = 0 := by
  rw [carry_realigned hk, carry_add_missing hc, Nat.mul_mod_right]

/-- Part (i): the words of the completed group, if one was pending. -/
theorem realigned_missing_nativeOut {s : State} {L : Nat} (hc : s.carry < s.params.W)
    (hk : s.missing ≤ L) : (s.realigned s.missing []).nativeOut = s.nativeOut ++
      if 0 < s.carry then
        wordsAt (s.pend ++ (s.wireIn.take L).take s.missing) s.params.CH else [] := by
  rw [State.realigned_nativeOut, groupsOf_missing hc, List.take_take, Nat.min_eq_left hk]
  split <;> simp

/-- Settles O46: the packet is the missing bytes, after which the carry is 0, and the rest. -/
theorem pktEmissionPlan : Obligations.PktEmissionPlan := by
  intro s t L hi he hk h
  obtain ⟨hl, hc, -⟩ := hi
  obtain ⟨-, -, hL⟩ := pktEnabled_iff.mp he
  obtain rfl := Outcome.next.inj ((exec_pkt_of_enabled hl he).symm.trans h)
  change s.missing ≤ L at hk
  have hempty := carry_realigned_missing hc (hk.trans hL)
  have hsplit (answers : List Word) : s.realigned L answers =
      (s.realigned s.missing []).realigned (L - s.missing) answers := by
    rw [realigned_realigned hl (hk.trans hL), Nat.add_sub_cancel' hk, List.nil_append]
  have hrest : (s.realigned s.missing []).wireIn.take (L - s.missing) =
      (s.wireIn.take L).drop s.missing := List.drop_take.symm
  refine ⟨?_, ?_, carry_realigned hL _⟩
  · rw [hsplit, realigned_of_carry_zero hempty, hrest, realigned_missing_nativeOut hc hk]
    rfl
  · rw [hsplit, realigned_of_carry_zero hempty, hrest, List.drop_drop]
    rfl

/-! ### Any number of packets (R126) -/

/-- Packets that follow one another do what one stretch of their total length does. They answer the
groups of that stretch in all, when each answer fits. -/
theorem execAll_pkts {lens : List Nat} {s : State} (hl : s.params.Legal) (hs : s.sync = true)
    (hp : s.pbRun = true) (hc : s.carry < s.params.W) (hlen : lens.sum ≤ s.wireIn.length) :
    ∃ answers : List Word,
      execAll (lens.map .pkt) s = .next (s.realigned lens.sum answers) ∧
      answers.length = lens.length ∧
      ((∀ L ∈ lens, L < 2 ^ 24) →
        (answers.map BitVec.toNat).sum = groupsOf lens.sum s) := by
  induction lens generalizing s with
  | nil =>
    refine ⟨[], congrArg Outcome.next (realigned_zero hc).symm, rfl, fun _ => ?_⟩
    exact (Nat.div_eq_of_lt hc).symm
  | cons L lens ih =>
    rw [List.sum_cons] at hlen ⊢
    have hL : L ≤ s.wireIn.length := by omega
    have hexec := exec_pkt_of_enabled hl (pktEnabled_iff.mpr ⟨hs, hp, hL⟩)
    obtain ⟨answers, hrest, hcount, hsum⟩ :=
      ih (s := s.realigned L [groupAnswer (groupsOf L s)]) hl hs hp
        (carry_realigned hL _ ▸ Nat.mod_lt _ (groupBytes_pos hl))
        (by rw [State.realigned_wireIn, List.length_drop]; omega)
    refine ⟨groupAnswer (groupsOf L s) :: answers, ?_, congrArg (· + 1) hcount, fun hfit => ?_⟩
    · rw [List.map_cons, execAll_cons hexec, hrest, realigned_realigned hl hL]
      rfl
    · obtain ⟨hfitL, hfit⟩ := List.forall_mem_cons.mp hfit
      rw [List.map_cons, List.sum_cons, hsum hfit, groupAnswer_toNat (groupsOf_lt hl hc hfitL),
        groupsOf_add hl hL]

theorem sameExcept_realigned (s : State) (L : Nat) (answers : List Word) :
    SameExcept [.wireIn, .nativeOut, .pend, .rsp .p] s (s.realigned L answers) := by
  intro x hx
  cases x with
  | rsp q => cases q <;> simp_all [Part.Same, State.realigned, PerPort.get]
  | wireIn | nativeOut | pend => simp at hx
  | _ => rfl

/-- Settles O50: the packets do what one stretch of their total length does, from an empty carry. -/
theorem pktCumulativeLaw : Obligations.PktCumulativeLaw := by
  intro s lens hl hs hp hc hlen
  obtain ⟨answers, hexec, hcount, hsum⟩ :=
    execAll_pkts hl hs hp (hc ▸ groupBytes_pos hl) hlen
  have hframe := sameExcept_realigned s lens.sum answers
  have hcarry := carry_realigned hlen answers
  have hgroups : s.params.W * (lens.sum / s.params.W) ≤ lens.sum := Nat.mul_div_le _ _
  have hwords : wordsAt (s.wireIn.take lens.sum) (s.params.CH * (lens.sum / s.params.W)) =
      wordsAt s.wireIn (s.params.CH * (lens.sum / s.params.W)) :=
    wordsAt_take _ _ _ (groupBytes_of_legal hl _ ▸ hgroups)
  have hw2n := exec_w2n_of_le hl (hgroups.trans hlen)
  rw [groupsOf, hc, Nat.zero_add] at hsum
  rw [hc, Nat.zero_add] at hcarry
  rw [realigned_of_carry_zero hc, hwords] at hexec hframe hcarry
  rw [wordsAt_take _ _ _ (groupBytes_of_legal hl _).ge] at hw2n
  exact ⟨_, hexec, hframe, rfl, rfl, hcarry, rfl, ⟨_, hw2n, rfl⟩, answers, rfl, hcount, hsum⟩

/-! ### The round trip with the converter (R128) -/

/-- Settles O51: the packets do what one stretch of all the bytes does, which converts them back. -/
theorem pktRoundTripWithConverter : Obligations.PktRoundTripWithConverter := by
  intro s t u N lens hl he h hparams hs hp hc hin htotal
  have hN := n2wEnabled_iff.mp he
  obtain rfl := Outcome.next.inj ((exec_n2w_of_le hN).symm.trans h)
  have hbytes : u.wireIn = nativeToWire (s.nativeIn.take (s.params.CH * N)) :=
    hin.trans List.drop_left
  have hlen : u.wireIn.length = s.params.W * N := by
    rw [hbytes, nativeToWire_groups_length hl hN]
  rw [← hparams] at hl hlen htotal
  have hdiv : u.params.W * N / u.params.W = N := Nat.mul_div_cancel_left _ (groupBytes_pos hl)
  have hwords : wordsAt (u.wireIn.take (u.params.W * N)) (u.params.CH * N) =
      (s.nativeIn.take (s.params.CH * N)).map (· &&& 0xFFFFFF00#32) := by
    rw [wordsAt_take _ _ _ (groupBytes_of_legal hl N).ge, ← wireToNative_groups hl _ _ hlen.ge,
      List.take_of_length_le hlen.le, hbytes, wireToNative_nativeToWire]
  obtain ⟨answers, hexec, -, -⟩ :=
    execAll_pkts hl hs hp (hc ▸ groupBytes_pos hl) (htotal.trans hlen.symm).le
  rw [htotal] at hexec
  refine ⟨_, hexec, ?_, ?_, ?_⟩
  · rw [realigned_of_carry_zero hc, hdiv, hwords]
  · rw [carry_realigned hlen.ge, hc, Nat.zero_add, Nat.mul_mod_right]
  · exact List.drop_eq_nil_of_le hlen.le

end Sys2Proof.Machine

/-! ## Proofs: the frame sizer of 43_frame_sizer.md -/

namespace Sys2Proof.Machine

open Host (Outcome)

/-! ### The frame size (R135, R138) -/

theorem frameSize_of_gt {s : State} {occ : Nat} (h : s.nframe.toNat + 1 < occ) :
    s.frameSize occ = min (s.nframe.toNat + s.params.DELTA) s.params.NMAX := by
  rw [State.frameSize, frameSizeRaw, if_pos h]

theorem frameSize_of_lt {s : State} {occ : Nat} (h : occ < s.nframe.toNat) :
    s.frameSize occ = min (s.nframe.toNat - s.params.DELTA) s.params.NMAX := by
  have habove : ¬ s.nframe.toNat + 1 < occ := by omega
  rw [State.frameSize, frameSizeRaw, if_neg habove, if_pos h]

/-- At the target, or one sample-group above it, the frame has its nominal size. -/
theorem frameSize_of_nominal {s : State} {occ : Nat}
    (h : occ = s.nframe.toNat ∨ occ = s.nframe.toNat + 1) :
    s.frameSize occ = min s.nframe.toNat s.params.NMAX := by
  have habove : ¬ s.nframe.toNat + 1 < occ := by omega
  have hbelow : ¬ occ < s.nframe.toNat := by omega
  rw [State.frameSize, frameSizeRaw, if_neg habove, if_neg hbelow]

theorem frameSize_congr {s s' : State} (hnominal : s.nframe = s'.nframe)
    (hdelta : s.params.DELTA = s'.params.DELTA) (hmax : s.params.NMAX = s'.params.NMAX)
    (occ : Nat) : s.frameSize occ = s'.frameSize occ := by
  simp only [State.frameSize, frameSizeRaw, hnominal, hdelta, hmax]

/-! ### FSIZE (R136, R138) -/

/-- With legal parameters the frame size fits the 24 bits of an answer (R91). -/
theorem frameSize_answer_eq {s : State} (hl : s.params.Legal) (occ : Nat) :
    (BitVec.ofNat 24 (s.frameSize occ)).setWidth 32 = BitVec.ofNat 32 (s.frameSize occ) := by
  obtain ⟨-, hfit⟩ := frameSize_lt hl occ
  rw [answer_eq, Nat.mod_eq_of_lt hfit]

theorem exec_fsize (occ : Nat) (s : State) :
    exec (.fsize occ) s = .next (s.respond .c (BitVec.ofNat 24 (s.frameSize occ))) := rfl

theorem exec_fsize_of_legal {s : State} (hl : s.params.Legal) (occ : Nat) :
    exec (.fsize occ) s = .next { s with
      rsp := { s.rsp with c := s.rsp.c ++ [BitVec.ofNat 32 (s.frameSize occ)] } } := by
  rw [← frameSize_answer_eq hl]
  exact exec_fsize occ s

/-- Settles O53: the effect, the bound on the answer, and one case of the function after the other. -/
theorem fsizeAnswersFrameSize : Obligations.FsizeAnswersFrameSize := by
  intro s occ hl
  obtain ⟨hmax, hfit⟩ := frameSize_lt hl occ
  refine ⟨exec_fsize_of_legal hl occ, hmax, hfit, fun h => ?_, fun h => ?_, fun h => ?_⟩
  · rw [frameSize_of_gt h]
    omega
  · rw [frameSize_of_lt h]
    omega
  · rw [frameSize_of_nominal h]
    omega

/-- Settles O54: the frame size is the same in states that agree on its inputs, and each of
the three cases for `occ` gives one value. -/
theorem frameSizeHasNoHistory : Obligations.FrameSizeHasNoHistory := by
  refine ⟨fun s s' occ hnominal hdelta hmax hrsp t t' h h' => ?_, fun s occ => ?_⟩
  · obtain rfl := Outcome.next.inj ((exec_fsize occ s).symm.trans h)
    obtain rfl := Outcome.next.inj ((exec_fsize occ s').symm.trans h')
    simp only [State.respond_rsp, PerPort.set, PerPort.get, hrsp,
      frameSize_congr hnominal hdelta hmax]
  · obtain habove | hbelow | hnear : s.nframe.toNat + 1 < occ ∨ occ < s.nframe.toNat ∨
        (occ = s.nframe.toNat ∨ occ = s.nframe.toNat + 1) := by omega
    · simp [frameSize_of_gt habove]
    · simp [frameSize_of_lt hbelow]
    · simp [frameSize_of_nominal hnear]

/-! ### CAP (R137) -/

theorem capEnabled_iff {occ : Nat} {s : State} : enabled (.cap occ) s = true ↔
    s.sync = true ∧ s.capRun = true ∧ s.params.CH * s.frameSize occ ≤ s.nativeIn.length := by
  simp [enabled, capEnabled, and_assoc]

theorem exec_cap_of_enabled {s : State} {occ : Nat} (he : enabled (.cap occ) s = true) :
    exec (.cap occ) s = .next { s with
      nativeIn := s.nativeIn.drop (s.params.CH * s.frameSize occ)
      wireOut := s.wireOut ++ nativeToWire (s.nativeIn.take (s.params.CH * s.frameSize occ))
      rsp := s.rsp.set .c (s.rsp.c ++ [(BitVec.ofNat 24 (s.frameSize occ)).setWidth 32]) } :=
  effect_of_true (execCap_eq occ s) he

/-- Settles O55: the bytes pushed are the conversion of the words of one frame. -/
theorem capSendsOneFrame : Obligations.CapSendsOneFrame := by
  refine fun s occ => ⟨capEnabled_iff, fun hl hs hc hn => ?_⟩
  have hexec := exec_cap_of_enabled (capEnabled_iff.mpr ⟨hs, hc, hn⟩)
  rw [frameSize_answer_eq hl] at hexec
  exact ⟨_, hexec, nativeToWire_groups_length hl hn, isWireOf_nativeToWire_take hn⟩

/-- Settles O56: FSIZE moves no data, so N2W finds the words of the frame where CAP does. -/
theorem capIsFsizeThenN2w : Obligations.CapIsFsizeThenN2w := by
  intro s occ he
  obtain ⟨-, -, hn⟩ := capEnabled_iff.mp he
  have hn2w := exec_n2w_of_le (s := s.respond .c (BitVec.ofNat 24 (s.frameSize occ))) hn
  rw [exec_cap_of_enabled he, execAll_cons (exec_fsize occ s), execAll_cons hn2w]
  rfl

end Sys2Proof.Machine

/-! ## Proofs: the feedback estimator of 44_feedback.md -/

namespace Sys2Proof.Machine

open Host (Outcome)

/-! ### The step of the estimate (R146, R151) -/

theorem nextEst_of_lt {s : State} {occ : Nat} (hl : s.params.Legal)
    (h : (occ : Int) < (s.nframe.toNat : Int) - 1) :
    ((s.nextEst occ).toNat : Int) =
      min ((s.est.toNat : Int) + s.params.QUANTUM) s.params.FB_MAX := by
  rw [nextEst_toNat hl, fbStepInt, if_pos h]

theorem nextEst_of_gt {s : State} {occ : Nat} (hl : s.params.Legal)
    (h : (s.nframe.toNat : Int) + 1 < occ) :
    ((s.nextEst occ).toNat : Int) =
      max ((s.est.toNat : Int) - s.params.QUANTUM) s.params.FB_MIN := by
  have hbelow : ¬ (occ : Int) < (s.nframe.toNat : Int) - 1 := by omega
  rw [nextEst_toNat hl, fbStepInt, if_neg hbelow, if_pos h]

/-- In the dead band the estimate stays. -/
theorem nextEst_of_band {s : State} {occ : Nat} (hlo : (s.nframe.toNat : Int) - 1 ≤ occ)
    (hhi : (occ : Int) ≤ (s.nframe.toNat : Int) + 1) : s.nextEst occ = s.est := by
  rw [State.nextEst, fbStepInt, if_neg hlo.not_gt, if_neg hhi.not_gt, BitVec.ofInt_natCast,
    BitVec.ofNat_toNat, BitVec.setWidth_eq]

/-- A step from inside the bounds changes the estimate by at most one quantum: saturation only
shortens it. -/
theorem abs_nextEst_sub_le {s : State} (hl : s.params.Legal) (occ : Nat)
    (hlo : s.params.FB_MIN ≤ s.est.toNat) (hhi : s.est.toNat ≤ s.params.FB_MAX) :
    |((s.nextEst occ).toNat : Int) - s.est.toNat| ≤ s.params.QUANTUM := by
  rw [abs_le]
  obtain hlow | hhigh | ⟨hband, hband'⟩ : (occ : Int) < (s.nframe.toNat : Int) - 1 ∨
      (s.nframe.toNat : Int) + 1 < occ ∨
      ((s.nframe.toNat : Int) - 1 ≤ occ ∧ (occ : Int) ≤ (s.nframe.toNat : Int) + 1) := by omega
  · have hval := nextEst_of_lt hl hlow
    omega
  · have hval := nextEst_of_gt hl hhigh
    omega
  · rw [nextEst_of_band hband hband']
    omega

/-- A bound on the register values is one on the 10.14 values they stand for (00_scope.md R15). -/
theorem abs_fixedValue_sub_le {v w : Reg} {q : Nat} (h : |(v.toNat : Int) - w.toNat| ≤ q) :
    |fixedValue v - fixedValue w| ≤ (q : ℚ) / 2 ^ 14 := by
  have hq : |(v.toNat : ℚ) - w.toNat| ≤ q := by exact_mod_cast h
  rw [fixedValue, fixedValue, ← sub_div, abs_div, abs_of_pos (by norm_num : (0 : ℚ) < 2 ^ 14)]
  gcongr

/-! ### TICK (R147) -/

theorem exec_tick_of_disabled {s : State} (he : s.fbEn = false) (occ : Nat) :
    exec (.tick occ) s = .next s :=
  effect_of_false (execTick_eq occ s) he

theorem exec_tick_of_enabled {s : State} (he : s.fbEn = true) (occ : Nat) :
    exec (.tick occ) s = .next { s with
      est := s.nextEst occ, fbOut := s.fbOut ++ bytesOfReg (s.nextEst occ) } :=
  effect_of_true (execTick_eq occ s) he

/-- A TICK in the dead band only publishes the estimate. -/
theorem exec_tick_of_band {s : State} {occ : Nat} (he : s.fbEn = true)
    (hlo : (s.nframe.toNat : Int) - 1 ≤ occ) (hhi : (occ : Int) ≤ (s.nframe.toNat : Int) + 1) :
    exec (.tick occ) s = .next (s.pushFbOut (bytesOfReg s.est)) := by
  rw [exec_tick_of_enabled he, nextEst_of_band hlo hhi]
  rfl

/-- Settles O57: the new value is `nextEst`, which each of the three cases for `occ` gives. -/
theorem tickStepsAndPublishes : Obligations.TickStepsAndPublishes := fun _ occ hl =>
  ⟨fun he => exec_tick_of_disabled he occ, fun he =>
    ⟨_, exec_tick_of_enabled he occ, nextEst_of_lt hl, nextEst_of_gt hl, nextEst_of_band⟩⟩

/-- Settles O58: with FB_EN 1 the invariant V4 puts EST inside the bounds, where a step is short
and stays inside; with FB_EN 0 nothing changes. -/
theorem tickChangeIsBounded : Obligations.TickChangeIsBounded := by
  intro s t occ ⟨hl, _, _, hest, _, _⟩ h
  cases he : s.fbEn with
  | false =>
    obtain rfl := Outcome.next.inj ((exec_tick_of_disabled he occ).symm.trans h)
    exact ⟨abs_fixedValue_sub_le (by simp), nofun⟩
  | true =>
    obtain rfl := Outcome.next.inj ((exec_tick_of_enabled he occ).symm.trans h)
    obtain ⟨-, hlo, hhi⟩ := hest he
    exact ⟨abs_fixedValue_sub_le (abs_nextEst_sub_le hl occ hlo hhi),
      fun _ => nextEst_bounds hl occ hlo hhi⟩

/-! ### TICKs in the dead band (R150) -/

theorem pushFbOut_nil (s : State) : s.pushFbOut [] = s := by
  rw [State.pushFbOut, List.append_nil]

theorem pushFbOut_pushFbOut (s : State) (bs cs : List Byte) :
    (s.pushFbOut bs).pushFbOut cs = s.pushFbOut (bs ++ cs) := by
  simp only [State.pushFbOut, List.append_assoc]

/-- Any number of TICKs in the dead band publish the same estimate as many times. -/
theorem execAll_ticks_of_band {s : State} {occ : Nat} (he : s.fbEn = true)
    (hlo : (s.nframe.toNat : Int) - 1 ≤ occ) (hhi : (occ : Int) ≤ (s.nframe.toNat : Int) + 1)
    (n : Nat) :
    execAll (List.replicate n (.tick occ)) s =
      .next (s.pushFbOut (List.replicate n (bytesOfReg s.est)).flatten) := by
  induction n generalizing s with
  | zero => exact congrArg Outcome.next (pushFbOut_nil s).symm
  | succ n ih =>
    rw [List.replicate_succ, execAll_cons (exec_tick_of_band he hlo hhi),
      ih (s := s.pushFbOut (bytesOfReg s.est)) he hlo hhi, pushFbOut_pushFbOut,
      List.replicate_succ, List.flatten_cons, State.pushFbOut_est]

/-- Settles O59: by induction on the number of TICKs, each of which leaves EST and NFRAME. -/
theorem tickSteadyState : Obligations.TickSteadyState := by
  intro s n occ _ he hlo hhi
  exact execAll_ticks_of_band he (by omega) (by omega) n

end Sys2Proof.Machine

/-! ## Proofs: the control commands of 45_control.md -/

namespace Sys2Proof.Machine

open Host (Outcome)

/-! ### NOP (R160) -/

theorem decodeOn_zero (q : Port) : decodeOn q 0x00000000#32 = .ok .nop := by
  have hdecode : decode 0x00000000#32 = .ok .nop := decode_encode (i := .nop) nofun
  rw [decodeOn_eq, hdecode]
  cases q <;> rfl

/-- Settles O31: the zero word decodes to NOP on every port, and the step runs it. -/
theorem nopDoesNothing : Obligations.NopDoesNothing :=
  ⟨fun _ => rfl, fun q s rest es hl ha hc =>
    stepRunsTheDecodedCommand q s _ rest es .nop hl ha hc (decodeOn_zero q) rfl⟩

/-! ### WR and RD (R161, R162) -/

theorem writeReg_of_not_shadow {r : RegName}
    (hr : (numberOfReg r).toNat < 8 ∨ 10 < (numberOfReg r).toNat) (v : Reg) (s : State) :
    s.writeReg r v = { s with illreg := true } := by
  cases r with
  | shRate | shNframe | shNomfb => exact absurd hr (by decide)
  | _ => rfl

/-- Settles O32: the table of numbers, the three shadows, and the registers that are no shadow. -/
theorem wrWritesShadowsOnly : Obligations.WrWritesShadowsOnly :=
  ⟨rfl, fun s v => ⟨rfl, rfl, rfl, fun r hr =>
    (execWr_eq r v s).trans (congrArg Outcome.next (writeReg_of_not_shadow hr v s))⟩⟩

theorem isReserved_iff (r : RegName) : isReserved r = true ↔ 10 < (numberOfReg r).toNat := by
  cases r <;> decide

/-- An answer on a port and ILLREG show in no register but ERR. -/
theorem readReg_of_answer {r : RegName} (hr : r ≠ .err) (answers : PerPort (List Word))
    (b : Bool) (s : State) :
    State.readReg r { s with rsp := answers, illreg := b } = s.readReg r := by
  cases r with
  | err => exact absurd rfl hr
  | _ => rfl

/-- Settles O33: RD's whole effect, at a number with a register and at a reserved one. -/
theorem rdAnswersTheRegister : Obligations.RdAnswersTheRegister := by
  refine fun s r => ⟨_, execRd_eq r s, fun hr => ?_, fun hr => ?_,
    fun r' hr' => readReg_of_answer hr' _ _ s⟩
  · have hfree : isReserved r = false :=
      Bool.eq_false_iff.mpr fun h => absurd ((isReserved_iff r).mp h) (by omega)
    rw [hfree, Bool.or_false]
    rfl
  · rw [(isReserved_iff r).mpr hr, Bool.or_true, readReg_reserved hr]
    rfl

/-! ### SYNCCLR and SYNCSET (R163, R164) -/

theorem exec_syncclr (s : State) : exec .syncclr s =
    .next { s with sync := false, fbEn := s.fbEn && !s.params.FBEN_CLR_ON_SYNCCLR } := rfl

/-- Settles O35: the effect for each value of the parameter; with SYNC clear the gate is closed. -/
theorem syncclrClosesTheGate : Obligations.SyncclrClosesTheGate := by
  refine fun s => ⟨_, exec_syncclr s, rfl, fun hp => ?_, fun hp => ?_,
    exec_frame (exec_syncclr s), packet_held_of_sync_clear rfl⟩
  · simp [hp]
  · simp [hp]

theorem exec_syncset_of_valid {s : State} (hv : s.cfgValid = true) :
    exec .syncset s = .next { s with est := s.nomFb, fbEn := true, sync := true } :=
  effect_of_true (execSyncset_eq s) hv

/-- Settles O36: the two branches of the effect. -/
theorem syncsetFinishesReconfiguration : Obligations.SyncsetFinishesReconfiguration :=
  fun s => ⟨exec_syncset_of_valid, effect_of_false (execSyncset_eq s)⟩

/-! ### CFGLD (R165) -/

theorem exec_cfgld_of_stopped {s : State} (hpb : s.pbRun = false) (hcap : s.capRun = false)
    (hlo : s.params.FB_MIN ≤ s.shNomfb.toNat) (hhi : s.shNomfb.toNat ≤ s.params.FB_MAX) :
    exec .cfgld s = .next { s with
      rate := s.shRate, nframe := s.shNframe, nomFb := s.shNomfb, cfgValid := true } :=
  effect_of_false (execCfgld_eq s)
    (Bool.eq_false_iff.mpr ((not_cfgldRefused_iff s).mpr ⟨hpb, hcap, hlo, hhi⟩))

/-- Settles O37: the two branches of the effect, by the conditions of CFGLD's check. -/
theorem cfgldReplacesConfiguration : Obligations.CfgldReplacesConfiguration :=
  fun s => ⟨exec_cfgld_of_stopped, fun h =>
    effect_of_true (execCfgld_eq s) ((cfgldRefused_iff s).mpr h)⟩

/-! ### PSTART, PSTOP, CSTART, CSTOP (R166 to R169) -/

theorem readReg_carry_of_carry_zero {s : State} (hc : s.carry = 0) : s.readReg .carry = 0 := by
  rw [State.readReg, State.carryWord, hc]
  rfl

/-- Settles O38: the four effects, and the carry that PSTART and PSTOP leave. -/
theorem startAndStopCommands : Obligations.StartAndStopCommands := by
  refine fun s => ⟨rfl, rfl, rfl, rfl, fun t h => ?_⟩
  have hcarry : t.carry = 0 := h.elim
    (fun h => of_effect (P := fun t => t.carry = 0) h rfl rfl)
    (fun h => of_effect (P := fun t => t.carry = 0) h rfl rfl)
  exact ⟨hcarry, readReg_carry_of_carry_zero hcarry⟩

/-! ### Who changes the direction flags (R170) -/

theorem pbRun_mem_writes {i : Instr} (h : .pbRun ∈ writes i) : i = .pstart ∨ i = .pstop := by
  cases i with
  | pstart => exact .inl rfl
  | pstop => exact .inr rfl
  | wr r v => cases r <;> simp [writes] at h
  | rd r => cases r <;> simp [writes, isReserved] at h
  | _ => simp [writes] at h

theorem capRun_mem_writes {i : Instr} (h : .capRun ∈ writes i) : i = .cstart ∨ i = .cstop := by
  cases i with
  | cstart => exact .inl rfl
  | cstop => exact .inr rfl
  | wr r v => cases r <;> simp [writes] at h
  | rd r => cases r <;> simp [writes, isReserved] at h
  | _ => simp [writes] at h

/-- Settles O23: each flag has two writers, which run on port H only; one sets it, one clears it. -/
theorem directionFlagsHaveTheirOwnCommands : Obligations.DirectionFlagsHaveTheirOwnCommands := by
  refine fun s t h hr => ⟨fun hne => ?_, fun hne => ?_⟩
  · obtain ⟨q, i, u, hrun, hw, -, -, ht⟩ := step_changes (x := .pbRun) h hr hne (by decide)
    have hport := (enabled_of_running hrun).2
    obtain rfl | rfl := pbRun_mem_writes hw <;> obtain rfl := List.mem_singleton.mp hport
    · exact .inl ⟨hrun, of_effect (P := fun t => t.pbRun = true) ht rfl rfl⟩
    · exact .inr ⟨hrun, of_effect (P := fun t => t.pbRun = false) ht rfl rfl⟩
  · obtain ⟨q, i, u, hrun, hw, -, -, ht⟩ := step_changes (x := .capRun) h hr hne (by decide)
    have hport := (enabled_of_running hrun).2
    obtain rfl | rfl := capRun_mem_writes hw <;> obtain rfl := List.mem_singleton.mp hport
    · exact .inl ⟨hrun, of_effect (P := fun t => t.capRun = true) ht rfl rfl⟩
    · exact .inr ⟨hrun, of_effect (P := fun t => t.capRun = false) ht rfl rfl⟩

/-! ### SYNC and FB_EN under the clear parameter (C7) -/

/-- C7 as an invariant: with FBEN_CLR_ON_SYNCCLR true, SYNC and FB_EN are equal. -/
def State.FlagsAgree (s : State) : Prop :=
  s.params.FBEN_CLR_ON_SYNCCLR = true → s.fbEn = s.sync

/-- The parts of the state that `State.FlagsAgree` reads. -/
def flagParts : List Part := [.params, .fbEn, .sync]

theorem flagsAgree_of_sameExcept {l : List Part} {s t : State} (h : SameExcept l s t)
    (hl : ∀ x ∈ flagParts, x ∉ l) (hs : s.FlagsAgree) : t.FlagsAgree := by
  have hsame : ∀ x ∈ flagParts, x.Same s t := fun x hx => h x (hl x hx)
  simp only [flagParts, List.forall_mem_cons, Part.Same] at hsame
  obtain ⟨hparams, hfbEn, hsync, -⟩ := hsame
  rwa [State.FlagsAgree, hparams, hfbEn, hsync]

/-- SYNCCLR clears both flags, SYNCSET sets both or neither, and no other command writes one. -/
theorem exec_keeps_flagsAgree {i : Instr} {s t : State} (hs : s.FlagsAgree)
    (h : exec i s = .next t) : t.FlagsAgree := by
  have hframe := exec_frame h
  cases i with
  | syncclr =>
    exact of_effect h (exec_syncclr s) fun hp : s.params.FBEN_CLR_ON_SYNCCLR = true => by simp [hp]
  | syncset => exact of_effect_ite h (execSyncset_eq s) (fun _ _ => rfl) (fun _ => hs)
  | wr r v => exact flagsAgree_of_sameExcept hframe (by cases r <;> simp [flagParts, writes]) hs
  | rd r => exact flagsAgree_of_sameExcept hframe (by cases r <;> decide) hs
  | _ => exact flagsAgree_of_sameExcept hframe (by simp [flagParts, writes]) hs

/-- No event changes a parameter, the reset input included (log entries 1 and 9). -/
theorem step_keeps_params {s t : State} (h : step s = .next t) : t.params = s.params := by
  obtain ⟨-, ⟨-, rfl⟩ | ⟨q, es, -, ht⟩ | ⟨q, w, es, -, rfl⟩ | ⟨bs, es, -, rfl⟩ |
    ⟨ws, es, -, rfl⟩ | ⟨es, -, rfl⟩⟩ := step_cases h
  case inr.inl => exact turn_keeps_params (s := s.setAgenda es) ht
  all_goals rfl

/-- Settles O24: every command keeps the flags equal, the reset input clears both, and no other
event writes one. -/
theorem clearParameterKeepsFlagsEqual : Obligations.ClearParameterKeepsFlagsEqual := by
  intro s t hp hs h
  have hagree : t.FlagsAgree := step_keeps_of_exec exec_keeps_flagsAgree (fun _ _ => rfl)
    (fun hu => flagsAgree_of_sameExcept hu (by decide))
    (fun {u} => flagsAgree_of_sameExcept (sameExcept_raise_illop u) (by decide)) (fun _ => hs) h
  exact hagree (step_keeps_params h ▸ hp)

/-! ### RECONF (R93, R207, R223) -/

/-- The commands of two lists, one list after the other. -/
theorem execAll_append {is js : List Instr} {s t : State} (h : execAll is s = .next t) :
    execAll (is ++ js) s = execAll js t := by
  induction is generalizing s with
  | nil => exact congrArg (execAll js) (Outcome.next.inj h)
  | cons i is ih =>
    obtain ⟨u, hu⟩ := exec_next i s
    rw [execAll_cons hu] at h
    rw [List.cons_append, execAll_cons hu, ih h]

/-- One more command at the end. -/
theorem execAll_concat {is : List Instr} {i : Instr} {s t u : State}
    (h : execAll is s = .next t) (hi : exec i t = .next u) :
    execAll (is ++ [i]) s = .next u :=
  (execAll_append h).trans (execAll_cons hi)

/-- After RECONF's SETCFG, SYNCCLR and STOPALL: the shadows written, the gate closed, both
directions stopped. -/
def State.stoppedWith (rate nframe nomfb : Reg) (s : State) : State :=
  { s with
    shRate := rate, shNframe := nframe, shNomfb := nomfb
    sync := false, fbEn := s.fbEn && !s.params.FBEN_CLR_ON_SYNCCLR
    pend := [], pbRun := false, capRun := false }

theorem execAll_stop (rate nframe nomfb : Reg) (s : State) :
    execAll (setCfg rate nframe nomfb ++ [.syncclr] ++ stopAll) s =
      .next (s.stoppedWith rate nframe nomfb) := rfl

/-- PSTART, when playback is asked for, from the stopped state with no byte pending. -/
theorem execAll_pstart_if {s : State} (hrun : s.pbRun = false) (hpend : s.pend = []) (pb : Bool) :
    execAll (if pb then [.pstart] else []) s = .next { s with pbRun := pb } := by
  cases pb with
  | false => exact congrArg Outcome.next (by rw [← hrun])
  | true => exact congrArg Outcome.next (by rw [State.clearCarry, State.setPend, ← hpend])

/-- CSTART, when capture is asked for. -/
theorem execAll_cstart_if {s : State} (hrun : s.capRun = false) (cap : Bool) :
    execAll (if cap then [.cstart] else []) s = .next { s with capRun := cap } := by
  cases cap with
  | false => exact congrArg Outcome.next (by rw [← hrun])
  | true => rfl

/-- After RECONF: the asked directions run with the new configuration, behind an open gate. -/
def State.reconfigured (rate nframe nomfb : Reg) (pb cap : Bool) (s : State) : State :=
  { s with
    shRate := rate, shNframe := nframe, shNomfb := nomfb
    rate := rate, nframe := nframe, nomFb := nomfb, cfgValid := true
    pend := [], pbRun := pb, capRun := cap
    est := nomfb, fbEn := true, sync := true }

/-- With both directions stopped CFGLD accepts a value within the bounds, and after it SYNCSET finds
CFG_VALID set. -/
theorem execAll_reconf {s : State} {rate nframe nomfb : Reg} (pb cap : Bool)
    (hlo : s.params.FB_MIN ≤ nomfb.toNat) (hhi : nomfb.toNat ≤ s.params.FB_MAX) :
    execAll (reconf rate nframe nomfb pb cap) s =
      .next (s.reconfigured rate nframe nomfb pb cap) := by
  have hload := execAll_concat (execAll_stop rate nframe nomfb s)
    (exec_cfgld_of_stopped rfl rfl hlo hhi)
  have hplay := (execAll_append hload).trans (execAll_pstart_if rfl rfl pb)
  have hcapture := (execAll_append hplay).trans (execAll_cstart_if rfl cap)
  exact execAll_concat hcapture (exec_syncset_of_valid rfl)

theorem sameExcept_reconfigured (rate nframe nomfb : Reg) (pb cap : Bool) (s : State) :
    SameExcept [.sync, .fbEn, .pbRun, .capRun, .cfgValid, .pend, .est, .rate, .nframe, .nomFb,
      .shRate, .shNframe, .shNomfb] s (s.reconfigured rate nframe nomfb pb cap) := by
  intro x hx
  cases x with
  | sync | fbEn | pbRun | capRun | cfgValid | pend | est | rate | nframe | nomFb | shRate
  | shNframe | shNomfb => simp at hx
  | _ => rfl

/-- Settles O39: RECONF's whole effect, read off part by part. -/
theorem reconfPreservesDirections : Obligations.ReconfPreservesDirections :=
  fun s rate nframe nomfb pb cap hlo hhi => ⟨_, execAll_reconf pb cap hlo hhi, rfl, rfl, rfl, rfl,
    rfl, rfl, rfl, rfl, rfl, rfl, sameExcept_reconfigured rate nframe nomfb pb cap s⟩

end Sys2Proof.Machine

/-! ## Proofs: the exceptions of 60_exceptions.md -/

namespace Sys2Proof.Machine

/-! ### At most one error per step (R197) -/

/-- The error bits are the four low bits of register ERR (R25). -/
theorem ErrorBit.code_lt (e : ErrorBit) : e.code < 4 := by
  cases e <;> decide

/-- Settles O20: a step that is not the reset keeps ERR or raises one error, which sets that error's
own bit. -/
theorem atMostOneErrorPerStep : Obligations.AtMostOneErrorPerStep := by
  intro s t h hr
  obtain hkept | ⟨e, hraised⟩ := step_raisesAtMostOne h hr
  · exact .inl hkept
  · exact .inr ⟨e.code, e.code_lt, hraised.trans (errWord_raise e s)⟩

end Sys2Proof.Machine

/-! ## Proofs: the reset, the schedule and the end of a run of 70_reset_and_hazards.md -/

namespace Sys2Proof.Machine

open Host (Outcome)

/-! ### Parameter sets that have no machine (R224) -/

theorem step_refused_iff {s : State} : step s = .refused .illegalParameters ↔ ¬ s.params.Legal := by
  constructor
  · intro h hl
    obtain ⟨t, ht⟩ := step_next hl
    simp [ht] at h
  · exact fun hl => if_neg hl

/-- The constraints of R7, one disjunct for each way to break one. -/
theorem not_legal_iff {p : Params} : ¬ p.Legal ↔
    (p.W ≠ 3 ∧ p.W ≠ 6) ∨ 3 * p.CH ≠ p.W ∨ 2 ^ 24 ≤ p.MAXPKT ∨ 2 ^ 24 ≤ p.DELTA ∨
    2 ^ 24 ≤ p.NMAX ∨ p.QUANTUM = 0 ∨ 2 ^ 24 ≤ p.QUANTUM ∨ p.FB_MAX < p.FB_MIN ∨
    2 ^ 24 ≤ p.FB_MAX := by
  unfold Params.Legal
  omega

/-- Settles O14: a step is refused exactly under illegal parameters, goes on under legal ones, and
writes none of them. -/
theorem illegalParametersRefused : Obligations.IllegalParametersRefused := by
  refine ⟨fun s => step_refused_iff.trans not_legal_iff, fun s h => ?_, fun s t => step_keeps_params⟩
  exact step_next (not_not.mp (mt step_refused_iff.mpr h))

/-! ### Infinite schedules (R237) -/

/-- Under legal parameters an event of a schedule is a step. -/
theorem step_eq_after {s : State} (hl : s.params.Legal) (e : Event) :
    step (s.setAgenda [e]) = .next (s.after e) := by
  obtain ⟨t, ht⟩ := step_next (s := s.setAgenda [e]) hl
  have hafter : s.after e = t := by
    unfold State.after
    rw [show step { s with agenda := [e] } = .next t from ht]
  rw [ht, hafter]

theorem handle_eq_after {s : State} (hl : s.params.Legal) (e : Event) :
    handle e (s.setAgenda []) = .next (s.after e) :=
  (step_of_legal (s := s.setAgenda [e]) hl rfl).symm.trans (step_eq_after hl e)

theorem trace_legal (events : Nat → Event) {s : State} (hl : s.params.Legal) (n : Nat) :
    (trace events s n).params.Legal := by
  induction n with
  | zero => exact hl
  | succ n ih =>
    have hparams := step_keeps_params (step_eq_after ih (events n))
    rwa [trace, hparams]

/-- Between a port's own turns its queue only grows, at its end. -/
theorem queue_grows_after {q : Port} {s : State} {e : Event} (hl : s.params.Legal)
    (hreset : e ≠ .reset) (hturn : e ≠ .turn q) :
    ∃ issued, (s.after e).cmd.get q = s.cmd.get q ++ issued := by
  have h := handle_eq_after hl e
  cases e with
  | turn q' =>
    have hne : q ≠ q' := fun hq => hturn (hq ▸ rfl)
    exact ⟨[], (turn_keeps_other_queue hne h).trans (List.append_nil _).symm⟩
  | issue q' w =>
    rw [← Outcome.next.inj h]
    by_cases hq : q = q'
    · exact ⟨[w], by simp [State.issue, hq]⟩
    · exact ⟨[], by simp [State.issue, hq]⟩
  | wireIn bs | nativeIn ws =>
    rw [← Outcome.next.inj h]
    exact ⟨[], (List.append_nil _).symm⟩
  | reset => exact absurd rfl hreset

/-- A head word stays at the head until a turn of its port. -/
theorem head_stays {events : Nat → Event} {s : State} {q : Port} {w : Word} {n m : Nat}
    (hl : s.params.Legal) (hreset : ∀ k, events k ≠ .reset) (hnm : n ≤ m)
    (hno : ∀ k, n ≤ k → k < m → events k ≠ .turn q)
    (hw : ((trace events s n).cmd.get q).head? = some w) :
    ((trace events s m).cmd.get q).head? = some w := by
  induction m, hnm using Nat.le_induction with
  | base => exact hw
  | succ m hnm ih =>
    have hhead := ih fun k hk hkm => hno k hk (by omega)
    obtain ⟨issued, hissued⟩ := queue_grows_after (trace_legal events hl m) (hreset m)
      (hno m hnm (Nat.lt_succ_self m))
    rw [trace, hissued, List.head?_append, hhead, Option.some_or]

/-- Fairness reaches the port: were its turn never to come, its head would stay takeable for ever. -/
theorem exists_turn {events : Nat → Event} {s : State} {q : Port} {n : Nat}
    (hfair : WeaklyFair events s)
    (htake : ∀ m, n ≤ m → (∀ k, n ≤ k → k < m → events k ≠ .turn q) →
      canTake q (trace events s m) = true) :
    ∃ m, n ≤ m ∧ events m = .turn q := by
  by_contra hnone
  have hno : ∀ k, n ≤ k → events k ≠ .turn q := fun k hk hturn => hnone ⟨k, hk, hturn⟩
  exact hnone (hfair q n fun m hm => htake m hm fun k hk _ => hno k hk)

/-- The first number from `n` on that has a property some number from `n` on has. -/
theorem exists_first_from {p : Nat → Prop} {n : Nat} (h : ∃ m, n ≤ m ∧ p m) :
    ∃ m, n ≤ m ∧ p m ∧ ∀ k, n ≤ k → k < m → ¬ p k := by
  classical
  obtain ⟨hle, hp⟩ := Nat.find_spec h
  exact ⟨Nat.find h, hle, hp, fun k hk hlt hpk => Nat.find_min h hlt ⟨hk, hpk⟩⟩

/-- A head can be taken when there is one and it is not held. -/
theorem canTake_iff {q : Port} {s : State} :
    canTake q s = true ↔ s.cmd.get q ≠ [] ∧ takeHead q s ≠ .held := by
  rw [ne_eq, ← takeHead_idle]
  unfold canTake
  cases takeHead q s <;> simp

/-- The turn of a port whose head can be taken takes it. -/
theorem queue_after_turn {q : Port} {s : State} (hl : s.params.Legal) (ht : canTake q s = true) :
    (s.after (.turn q)).cmd.get q = (s.cmd.get q).tail := by
  obtain ⟨hne, hheld⟩ := canTake_iff.mp ht
  obtain ⟨w, hc, -⟩ | ⟨-, hh | hempty⟩ := turn_queue (handle_eq_after hl (.turn q))
  · rw [State.setAgenda_cmd] at hc
    rw [hc, List.tail_cons]
  · exact absurd (takeHead_setAgenda_held.mp hh) hheld
  · exact absurd hempty hne

/-- Settles O28: fairness gives the port a turn, its first turn finds the word still at the head, and
takes it. -/
theorem fairScheduleTakesEveryTakeableHead : Obligations.FairScheduleTakesEveryTakeableHead := by
  intro events s q w n hl hreset hfair hw htake
  obtain ⟨m, hnm, hturn, hno⟩ := exists_first_from (exists_turn hfair htake)
  refine ⟨m, hnm, hturn, head_stays hl hreset hnm hno hw, ?_⟩
  rw [trace, hturn]
  exact queue_after_turn (trace_legal events hl m) (htake m hnm hno)

/-! ### After the end of a run (R238) -/

theorem mem_allPorts (q : Port) : q ∈ allPorts := by
  cases q <;> decide

/-- No port has a head that can be taken: every queue is empty or has a held command at its head. -/
def State.NothingToTake (s : State) : Prop :=
  ∀ q, s.cmd.get q = [] ∨ takeHead q s = .held

/-- `t` is `s` but for the events to come, and only turns are to come in `t`. -/
def State.SameButTurns (s t : State) : Prop :=
  ∃ es, onlyTurns es = true ∧ t = s.setAgenda es

theorem ended_iff {s : State} : s.Completed ∨ s.Stuck ↔
    onlyTurns s.agenda = true ∧ s.NothingToTake := by
  constructor
  · rintro (⟨ha, hq⟩ | ⟨ha, -, hq⟩)
    · exact ⟨ha, fun q => .inl (hq q (mem_allPorts q))⟩
    · exact ⟨ha, fun q => hq q (mem_allPorts q)⟩
  · rintro ⟨ha, hq⟩
    by_cases hempty : ∀ q ∈ allPorts, s.cmd.get q = []
    · exact .inl ⟨ha, hempty⟩
    · exact .inr ⟨ha, by simpa using hempty, fun q _ => hq q⟩

/-- A turn with nothing to take does nothing, whatever is to come. -/
theorem turn_of_nothingToTake {s : State} (hs : s.NothingToTake) (q : Port) (es : List Event) :
    turn q (s.setAgenda es) = .next (s.setAgenda es) :=
  (hs q).elim (turn_idle (s := s.setAgenda es)) fun hh => turn_held (takeHead_setAgenda_held.mpr hh)

/-- While nothing can be taken and only turns are to come, a step does no more than end a turn. -/
theorem step_keeps_sameButTurns {s t u : State} (hs : s.NothingToTake) (ht : s.SameButTurns t)
    (h : step t = .next u) : s.SameButTurns u := by
  obtain ⟨es, hes, rfl⟩ := ht
  obtain ⟨-, ⟨-, rfl⟩ | ⟨q, rest, ha, hturn⟩ | ⟨q, w, rest, ha, -⟩ | ⟨bs, rest, ha, -⟩ |
    ⟨ws, rest, ha, -⟩ | ⟨rest, ha, -⟩⟩ := step_cases h
  case inl => exact ⟨es, hes, rfl⟩
  case inr.inl =>
    obtain rfl : es = .turn q :: rest := ha
    exact ⟨rest, hes, Outcome.next.inj (hturn.symm.trans (turn_of_nothingToTake hs q rest))⟩
  all_goals
    rw [State.setAgenda_agenda] at ha
    simp [ha, onlyTurns] at hes

/-- Settles O29: an ended run's steps only use up the turns to come, which no output, queue or
register reads. -/
theorem endedRunShowsNothingMore : Obligations.EndedRunShowsNothingMore := by
  intro n s t hended h
  obtain ⟨ha, hs⟩ := ended_iff.mp hended
  obtain ⟨es, hes, rfl⟩ : s.SameButTurns t :=
    runSteps_keeps_of_step (step_keeps_sameButTurns hs) ⟨s.agenda, ha, rfl⟩ h
  refine ⟨rfl, rfl, fun ⟨_, hempty⟩ => ⟨hes, hempty⟩, fun ⟨_, hqueued, hheld⟩ => ⟨hes, hqueued, ?_⟩⟩
  exact fun q hq => (hheld q hq).imp_right takeHead_setAgenda_held.mpr

end Sys2Proof.Machine
